-- ==== Sys2Proof/Word.lean ====
section
/-! DEFINITION. The word types of the block: the widths the spec gives registers (R20), table entries (R50)
and decode words (R65). Every value is unsigned and bit 0 is the least significant bit (R12). -/

namespace Sys2Proof

/-- A one-bit register, pin or signal: `true` is 1 (high), `false` is 0 (low). -/
abbrev Bit := Bool

/-- An 8-bit value: a duty-table entry, `pwm_thr`, `pwm_cnt` (R7, R29, R33). -/
abbrev Byte := BitVec 8

/-- A 2-bit duty-table index: every value 0..3 names an entry (R23, R53). -/
abbrev Index := BitVec 2

/-- The IN word, `{rst, btn_b_n, btn_a_n}` (R65). -/
abbrev InWord := BitVec 3

/-- The EV word, `{fall_b, fall_a}` (R65). -/
abbrev EvWord := BitVec 2

/-- The CW word, `{inited, dir_flag, btn_flag}` (R65). -/
abbrev CwWord := BitVec 3

/-- The PW word, `{apply, pwm_run}` (R65). -/
abbrev PwWord := BitVec 2

end Sys2Proof
end

