-- ==== Sys2Proof/Config.lean ====
section
/-! DEFINITION. What an implementation fixes (the parameters of R7, the build switch of R6) and the two free values:
the block clock frequency `F_CLK` and the pin samples of an environment that no stimulus program scripts. -/

namespace Sys2Proof

/-- A duty fraction `num / den`, kept exact until R9's build-time rounding. -/
structure Frac where
  num : Nat
  den : Nat
deriving DecidableEq, Repr

/-- The source's build-time switch (R6; its two names are in 92_eei_decisions.md D4). -/
inductive Mode where
  | buttonDutyCycle
  | potentiometerDutyCycleWithHBridge
deriving DecidableEq, Repr

namespace Config

/-- `N`, the number of duty-table entries (R7, R8). -/
def tableLen : Nat := 4

/-- `MAX_COUNT`, the PWM compare full scale and the length of a period (R7, R132). -/
def maxCount : Nat := 255

/-- `DUTY_FRAC[0..3]` = 0.0, 0.25, 0.625, 0.875 (R7). -/
def dutyFrac (i : Index) : Frac :=
  if i = 0 then ⟨0, 1⟩ else if i = 1 then ⟨1, 4⟩ else if i = 2 then ⟨5, 8⟩ else ⟨7, 8⟩

/-- The hardwired PRESCALE field: 0b01, divide by 1 (R32, R34). -/
def prescale : BitVec 2 := 0b01

/-- The hardwired WGM field: 1, fast PWM (R32, R34). -/
def wgm : BitVec 1 := 1

/-- `F_CLK`, the block clock frequency in hertz: OPEN in the spec (R7, R145, D23), so it has no value here either. -/
opaque fClk : Nat

/-- FREE VALUE (notes/assumptions/1.md): the IN word an unscripted environment drives in its `n`-th drawn cycle.
R11 makes the environment a free input of every step, and R186 lets a sample at a changing edge be either value:
nothing can be proved of this constant, so a statement that holds of the step holds for every input. -/
opaque pinSample : Nat → InWord

end Config

end Sys2Proof
end

