-- ==== Sys2Proof/Syntax.lean ====
section
/-! DEFINITION. The operations of the block (one constructor per row of spec/opcode_table.json), the four decode
words that select them, the stimulus directives of R76 and R77, and the transaction-level moves of R10. -/

namespace Sys2Proof

/-- One operation of the block. The constructor's fields are the operands that the operation takes from outside the
register record: the two pin samples of RESET and SYNC (R66) and the `thr, dir` of PWM_APPLY (R71, R75). Every other
operand is a register (R72). -/
inductive Instr where
  /-- RESET (R173): load the reset state and both lines' sampled levels. -/
  | reset (btn_b_n btn_a_n : Bit)
  /-- SYNC (R91): shift both synchronizer chains by one sample. -/
  | sync (btn_b_n btn_a_n : Bit)
  /-- SET_BTN (R93): a falling edge of button A. -/
  | setBtn
  /-- SET_DIR (R94): a falling edge of button B. -/
  | setDir
  /-- NO_EVENT (R96): no falling edge on either line. -/
  | noEvent
  /-- INIT_APPLY (R111): the one-shot application of the first table entry. -/
  | initApply
  /-- SVC_IDLE (R112): a service with no pending event. -/
  | svcIdle
  /-- SVC_DIR (R113): toggle the direction and reapply the current duty cycle. -/
  | svcDir
  /-- SVC_DUTY (R114): apply the next table entry and advance the cursor. -/
  | svcDuty
  /-- PWM_APPLY thr, dir (R131): load threshold and channel in one cycle. -/
  | pwmApply (thr : Byte) (dir : Bit)
  /-- PWM_TICK (R132): advance the PWM counter. -/
  | pwmTick
  /-- PWM_HOLD (R133): the PWM is stopped. -/
  | pwmHold
deriving DecidableEq, Repr

/-- The four decode-word formats of R65. -/
inductive Format where
  | inp
  | ev
  | cw
  | pw
deriving DecidableEq, Repr

/-- A decode word with its format. The PW word is accompanied by the two operand signals `apply_thr` and `apply_dir`
that the CW decode drives (R69, R71). -/
inductive OpWord where
  | inp (w : InWord)
  | ev (w : EvWord)
  | cw (w : CwWord)
  | pw (w : PwWord) (apply_thr : Byte) (apply_dir : Bit)
deriving DecidableEq, Repr

/-- A directive of a stimulus program (R76) or a pseudo-directive (R77). `raw k d` carries the octal digit `d`. -/
inductive Directive where
  | rst (k : Nat)
  | idle (k : Nat)
  | holdA (k : Nat)
  | holdB (k : Nat)
  | holdAB (k : Nat)
  | raw (k d : Nat)
  | por
  | pressA
  | pressB
  | pressAB
  | wait (k : Nat)
deriving DecidableEq, Repr

/-- A move of the transaction level (R10, R103, R117). -/
inductive Move where
  | edgeA
  | edgeB
  | service
deriving DecidableEq, Repr

end Sys2Proof
end

