-- ==== Sys2Proof/WellFormed.lean ====
section
/-! DEFINITION. What a well-formed operation, cycle, stimulus directive, stimulus program and duty fraction is. -/

namespace Sys2Proof

/-- Every operation is well formed: its operands are as wide as the pins and signals they come from, and R73 reserves
no encoding and no operand value. -/
def Instr.wellFormed (i : Instr) : Bool :=
  match i with
  | .reset _ _ => true
  | .sync _ _ => true
  | .setBtn => true
  | .setDir => true
  | .noEvent => true
  | .initApply => true
  | .svcIdle => true
  | .svcDir => true
  | .svcDuty => true
  | .pwmApply _ _ => true
  | .pwmTick => true
  | .pwmHold => true

/-- The format whose decode selects an operation (R66, R67, R70, R71). -/
def Instr.format (i : Instr) : Format :=
  match i with
  | .reset _ _ => .inp
  | .sync _ _ => .inp
  | .setBtn => .ev
  | .setDir => .ev
  | .noEvent => .ev
  | .initApply => .cw
  | .svcIdle => .cw
  | .svcDir => .cw
  | .svcDuty => .cw
  | .pwmApply _ _ => .pw
  | .pwmTick => .pw
  | .pwmHold => .pw

/-- Is the operation RESET? -/
def Instr.isReset (i : Instr) : Bool :=
  match i with
  | .reset _ _ => true
  | _ => false

/-- Is the operation PWM_APPLY? -/
def Instr.isPwmApply (i : Instr) : Bool :=
  match i with
  | .pwmApply _ _ => true
  | _ => false

/-- The operations of one format in a cycle's list. -/
def opsOfFormat (f : Format) (l : List Instr) : List Instr :=
  l.filter fun i => i.format == f

/-- The operations of one cycle are well composed (R65, R66, R134): RESET stands alone; otherwise there is SYNC, the EV
selection is NO_EVENT alone or one or both of SET_BTN and SET_DIR, there is exactly one controller operation and exactly
one PWM driver operation, and the latter is PWM_APPLY exactly when the former is not SVC_IDLE. -/
def cycleWellFormed (l : List Instr) : Bool :=
  if l.any Instr.isReset then l.length == 1
  else
    (opsOfFormat .inp l).length == 1 &&
    (opsOfFormat .ev l == [.noEvent] || opsOfFormat .ev l == [.setBtn] || opsOfFormat .ev l == [.setDir] ||
      opsOfFormat .ev l == [.setBtn, .setDir]) &&
    (opsOfFormat .cw l).length == 1 &&
    (opsOfFormat .pw l).length == 1 &&
    (l.any Instr.isPwmApply == !l.contains .svcIdle)

/-- A directive drives IN for `k ≥ 1` cycles, and RAW's operand is an octal digit (R76). -/
def Directive.wellFormed (d : Directive) : Bool :=
  match d with
  | .rst k => decide (1 ≤ k)
  | .idle k => decide (1 ≤ k)
  | .holdA k => decide (1 ≤ k)
  | .holdB k => decide (1 ≤ k)
  | .holdAB k => decide (1 ≤ k)
  | .raw k d => decide (1 ≤ k) && decide (d < 8)
  | .por => true
  | .pressA => true
  | .pressB => true
  | .pressAB => true
  | .wait k => decide (1 ≤ k)

/-- A stimulus program is well formed when each of its directives is (R76). -/
def programWellFormed (p : List Directive) : Bool := p.all Directive.wellFormed

/-- A duty fraction is a real fraction and lies in [0, 1] (R8). -/
def Frac.wellFormed (f : Frac) : Bool := decide (0 < f.den) && decide (f.num ≤ f.den)

end Sys2Proof
end

