-- ==== Sys2Proof/Decode.lean ====
section
/-! DEFINITION. The four decode words of R65, their decoders (R66, R67, R70, R71), the opcode table as rows of match and
mask, the encoder, and the reading of a stimulus program's octal digits (R76). -/

namespace Sys2Proof

/-! ### Forming and reading the words -/

/-- `IN[2]` (R65). -/
def inRst (w : InWord) : Bit := w[2]

/-- `IN[1]` (R65). -/
def inBtnB (w : InWord) : Bit := w[1]

/-- `IN[0]` (R65). -/
def inBtnA (w : InWord) : Bit := w[0]

/-- The IN word of three pins (R65). -/
def mkIn (rst btn_b_n btn_a_n : Bit) : InWord :=
  BitVec.ofBool rst ++ BitVec.ofBool btn_b_n ++ BitVec.ofBool btn_a_n

/-- The EV word of the two edge detects (R65). -/
def mkEv (fall_b fall_a : Bit) : EvWord := BitVec.ofBool fall_b ++ BitVec.ofBool fall_a

/-- The CW word of the three control registers (R65). -/
def mkCw (inited dir_flag btn_flag : Bit) : CwWord :=
  BitVec.ofBool inited ++ BitVec.ofBool dir_flag ++ BitVec.ofBool btn_flag

/-- The PW word of the apply signal and `pwm_run` (R65). -/
def mkPw (apply pwm_run : Bit) : PwWord := BitVec.ofBool apply ++ BitVec.ofBool pwm_run

/-! ### Decoders, total on every word (R73) -/

/-- The IN decode (R66). The button bits are the operands of both operations (RESET loads them, R173). -/
def decodeIn (w : InWord) : Instr :=
  if inRst w then .reset (inBtnB w) (inBtnA w) else .sync (inBtnB w) (inBtnA w)

/-- The EV decode (R70): zero, one or two flag-set operations; NO_EVENT stands for none. -/
def decodeEv (w : EvWord) : List Instr :=
  if w = 0 then [.noEvent]
  else (if w[0] then [.setBtn] else []) ++ (if w[1] then [.setDir] else [])

/-- The CW decode (R67): initialization first, then the direction flag, then the button flag. -/
def decodeCw (w : CwWord) : Instr :=
  if w[2] then
    if w[1] then .svcDir else if w[0] then .svcDuty else .svcIdle
  else .initApply

/-- The PW decode (R71). The two signals are PWM_APPLY's operands and are not used otherwise (R69). -/
def decodePw (w : PwWord) (apply_thr : Byte) (apply_dir : Bit) : Instr :=
  if w[1] then .pwmApply apply_thr apply_dir else if w[0] then .pwmTick else .pwmHold

/-- The operations a decode word selects, in its format. -/
def decode (w : OpWord) : List Instr :=
  match w with
  | .inp w => [decodeIn w]
  | .ev w => decodeEv w
  | .cw w => [decodeCw w]
  | .pw w thr dir => [decodePw w thr dir]

/-! ### The opcode table -/

/-- One row of spec/opcode_table.json: an operation's mnemonic, format, match and mask. -/
structure OpRow where
  mnemonic : String
  format : Format
  pattern : Nat
  mask : Nat
deriving DecidableEq, Repr

/-- The row of an operation (R66, R67, R70, R71). -/
def Instr.row (i : Instr) : OpRow :=
  match i with
  | .reset _ _ => ⟨"RESET", .inp, 0b100, 0b100⟩
  | .sync _ _ => ⟨"SYNC", .inp, 0b000, 0b100⟩
  | .setBtn => ⟨"SET_BTN", .ev, 0b01, 0b01⟩
  | .setDir => ⟨"SET_DIR", .ev, 0b10, 0b10⟩
  | .noEvent => ⟨"NO_EVENT", .ev, 0b00, 0b11⟩
  | .initApply => ⟨"INIT_APPLY", .cw, 0b000, 0b100⟩
  | .svcIdle => ⟨"SVC_IDLE", .cw, 0b100, 0b111⟩
  | .svcDir => ⟨"SVC_DIR", .cw, 0b110, 0b110⟩
  | .svcDuty => ⟨"SVC_DUTY", .cw, 0b101, 0b111⟩
  | .pwmApply _ _ => ⟨"PWM_APPLY", .pw, 0b10, 0b10⟩
  | .pwmTick => ⟨"PWM_TICK", .pw, 0b01, 0b11⟩
  | .pwmHold => ⟨"PWM_HOLD", .pw, 0b00, 0b11⟩

/-- The whole table, in its own order. The operands named here do not matter: a row has none. -/
def opcodeTable : List OpRow :=
  [Instr.row (.reset false false), Instr.row (.sync false false), Instr.row .setBtn, Instr.row .setDir,
   Instr.row .noEvent, Instr.row .initApply, Instr.row .svcIdle, Instr.row .svcDir, Instr.row .svcDuty,
   Instr.row (.pwmApply 0 false), Instr.row .pwmTick, Instr.row .pwmHold]

/-- The format of a decode word. -/
def OpWord.format (w : OpWord) : Format :=
  match w with
  | .inp _ => .inp
  | .ev _ => .ev
  | .cw _ => .cw
  | .pw _ _ _ => .pw

/-- The bits of a decode word as one number (operand signals are no part of the word, R65). -/
def OpWord.bits (w : OpWord) : Nat :=
  match w with
  | .inp w => w.toNat
  | .ev w => w.toNat
  | .cw w => w.toNat
  | .pw w _ _ => w.toNat

/-- The word lies in the row: same format, and the masked bits are the row's match. -/
def OpRow.covers (r : OpRow) (w : OpWord) : Bool :=
  r.format == w.format && w.bits &&& r.mask == r.pattern

/-! ### Encoder -/

/-- Values for the bits and signals that a row leaves as don't-care. -/
structure DontCare where
  hi : Bit
  lo : Bit
  thr : Byte
  dir : Bit
deriving DecidableEq, Repr

/-- A decode word that selects the operation, written from the tables of R66, R67, R70 and R71, its don't-care bits
taken from `x`. -/
def encodeWith (x : DontCare) (i : Instr) : OpWord :=
  match i with
  | .reset b a => .inp (mkIn true b a)
  | .sync b a => .inp (mkIn false b a)
  | .setBtn => .ev (mkEv x.hi true)
  | .setDir => .ev (mkEv true x.lo)
  | .noEvent => .ev 0b00
  | .initApply => .cw (mkCw false x.hi x.lo)
  | .svcIdle => .cw 0b100
  | .svcDir => .cw (mkCw true true x.lo)
  | .svcDuty => .cw 0b101
  | .pwmApply thr dir => .pw (mkPw true x.lo) thr dir
  | .pwmTick => .pw 0b01 x.thr x.dir
  | .pwmHold => .pw 0b00 x.thr x.dir

/-- The encoding with every don't-care at 0. -/
def encode (i : Instr) : OpWord := encodeWith ⟨false, false, 0, false⟩ i

/-! ### Words from outside the block -/

/-- Why something offered as a cycle's IN word, or as a stimulus program's text, is rejected. -/
inductive DecodeReject where
  /-- A number that is no 3-bit IN word (R65). Raised by `decodeInNat`; safe, since no pin carries such a value. -/
  | notAnInWord (value : Nat)
  /-- A character that is no octal digit (R76). Raised by `readDigits`; safe. -/
  | notAnOctalDigit (c : Char)
deriving DecidableEq, Repr

/-- The IN decode of an arbitrary number: only 0..7 are IN words, and all eight are (R66). -/
def decodeInNat (v : Nat) : Except DecodeReject Instr :=
  if v < 8 then .ok (decodeIn (BitVec.ofNat 3 v)) else .error (.notAnInWord v)

/-- The IN word of an octal digit (R76). -/
def digitWord (c : Char) : Option InWord :=
  if c = '0' then some 0 else if c = '1' then some 1 else if c = '2' then some 2 else if c = '3' then some 3
  else if c = '4' then some 4 else if c = '5' then some 5 else if c = '6' then some 6 else if c = '7' then some 7
  else none

/-- The octal digit of an IN word (R76). -/
def wordDigit (w : InWord) : Char :=
  if w = 0 then '0' else if w = 1 then '1' else if w = 2 then '2' else if w = 3 then '3'
  else if w = 4 then '4' else if w = 5 then '5' else if w = 6 then '6' else '7'

/-- Read a stimulus program's encoding: one octal digit per cycle, in cycle order, the text after `;` up to the end of
its line a comment (R76); white space between digits is skipped. Total on any text. -/
def readDigitsFrom (inComment : Bool) : List Char → Except DecodeReject (List InWord)
  | [] => .ok []
  | c :: cs =>
    if c = '\n' then readDigitsFrom false cs
    else if inComment then readDigitsFrom true cs
    else if c = ';' then readDigitsFrom true cs
    else if c = ' ' then readDigitsFrom false cs
    else
      match digitWord c with
      | none => .error (.notAnOctalDigit c)
      | some w =>
        match readDigitsFrom false cs with
        | .ok ws => .ok (w :: ws)
        | .error e => .error e

/-- Read a stimulus program's encoding from its first character. -/
def readDigits (cs : List Char) : Except DecodeReject (List InWord) := readDigitsFrom false cs

/-- The instruction read from an opcode-table word. The block takes ONE word from outside each cycle, the IN word; the
EV, CW and PW words are formed inside it, from its registers, and share their bit patterns with IN (R65). A bare number
carries no format, so it is read as what the block's environment can drive: an IN word (notes/assumptions/3.md). -/
def decodeTableWord (nbits w : Nat) : Option Instr :=
  match decodeInNat (w % 2 ^ nbits) with
  | .ok i => some i
  | .error _ => none

/-- The operations read from an opcode-table word in a stated format, for all four formats (the operand signals, which
are no bits of the word, are given beside it). -/
def decodeFormatWord (f : Format) (w : Nat) (apply_thr : Byte) (apply_dir : Bit) : List Instr :=
  match f with
  | .inp => decode (.inp (BitVec.ofNat 3 w))
  | .ev => decode (.ev (BitVec.ofNat 2 w))
  | .cw => decode (.cw (BitVec.ofNat 3 w))
  | .pw => decode (.pw (BitVec.ofNat 2 w) apply_thr apply_dir)

end Sys2Proof
end

