-- ==== Sys2Proof/Machine/State.lean ====
section
/-! DEFINITION. The state of the block (R20), its reset state (R173), and the reasons a step can stop. -/

namespace Sys2Proof.Machine

/-- A duty-table image: the entries that differ from the default table, by address 0..3 in rising order (R7, R50).
`Memory.wf` of Machine/Ops.lean says which lists are canonical. -/
abbrev Memory := List Host.Cell

/-- The block has no fault outcome: it raises no exception and no operation traps, faults, halts or stalls (R150). -/
inductive Fault where
deriving DecidableEq, Repr

/-- Why the model gives no meaning. R150 asks for a refusal outcome for a configuration outside the spec. -/
inductive Refusal where
  /-- An operation of the opcode table without a meaning. Raised by nothing: every operation has its meaning. Safe. -/
  | notModelled (mnemonic : String)
  /-- A build with MODE other than ButtonDutyCycle (R6, U2). Raised by `build`, at build time only. Safe. -/
  | modeOutsideSpec
deriving DecidableEq, Repr

/-- The register record of R20 (the first sixteen fields, under the spec's names), the duty table, and the model's own
two fields for the environment. -/
structure State where
  /-- R22: 0 until INIT_APPLY has run. -/
  inited : Bit
  /-- R23: the table index to apply on the next button event. -/
  next_index : Index
  /-- R24: the index most recently applied. -/
  last_index : Index
  /-- R25: the direction, 0 = forward, 1 = backward. -/
  dir : Bit
  /-- R26: a duty step is pending. -/
  btn_flag : Bit
  /-- R27: a direction toggle is pending. -/
  dir_flag : Bit
  /-- R29: the output-compare threshold. -/
  pwm_thr : Byte
  /-- R30: the active channel, 0 = A, 1 = B. -/
  pwm_chan : Bit
  /-- R31: the PWM clock has been started. -/
  pwm_run : Bit
  /-- R33: the PWM period counter. -/
  pwm_cnt : Byte
  /-- R35: line A, first synchronizer stage. -/
  a_m : Bit
  /-- R35: line A, synchronized level. -/
  a_s : Bit
  /-- R35: line A, synchronized level one cycle earlier. -/
  a_p : Bit
  /-- R35: line B, first synchronizer stage. -/
  b_m : Bit
  /-- R35: line B, synchronized level. -/
  b_s : Bit
  /-- R35: line B, synchronized level one cycle earlier. -/
  b_p : Bit
  /-- R50: the duty table, held as its differences from the default (R7 lets a model take the table as an argument). -/
  mem : Memory
  /-- MODEL'S OWN: the IN words the environment is scripted to drive next, one per cycle (R15, R76). -/
  pins_ahead : List InWord
  /-- MODEL'S OWN: how many IN words an unscripted environment has drawn (the argument of `Config.pinSample`). -/
  draws : Nat
deriving DecidableEq, Repr

/-- R173's reset values for the two line levels sampled in the reset cycle, with the default table (R7), and an
environment that nothing scripts. -/
def State.resetWith (btn_b_n btn_a_n : Bit) : State where
  inited := false
  next_index := 0
  last_index := 0
  dir := false
  btn_flag := false
  dir_flag := false
  pwm_thr := 0
  pwm_chan := false
  pwm_run := false
  pwm_cnt := 0
  a_m := btn_a_n
  a_s := btn_a_n
  a_p := btn_a_n
  b_m := btn_b_n
  b_s := btn_b_n
  b_p := btn_b_n
  mem := []
  pins_ahead := []
  draws := 0

/-- The machine right after a reset cycle in which both buttons are released (the directive RST of R76). The line levels
are the model's choice (DESIGN CHOICE, notes/assumptions/2.md): R173 loads whatever the lines carry. -/
def State.reset : State := State.resetWith true true

end Sys2Proof.Machine
end

