-- ==== Sys2Proof/Machine/Ops.lean ====
section
/-! DEFINITION. The named operations that the meanings share: the duty table (R9, R14, R50), the register load of RESET
(R173), the synchronizer shift (R91), the cursor's advance (R111, R114), and the PWM driver's load and counter (R131, R132).
TAKING AN EXCEPTION and RETURNING FROM ONE have no operation here: the block raises none (R150) and has neither trap entry
nor trap return (R154, R155). -/

namespace Sys2Proof.Machine

/-! ### The duty table -/

/-- R9's build-time conversion, `round(frac × MAX_COUNT)` with `round(x) = floor(x + 0.5)`, on the exact fraction. -/
def roundHalfUp (f : Frac) : Nat :=
  (2 * f.num * Config.maxCount + f.den) / (2 * f.den)

/-- The 8-bit threshold of a fraction (R9). -/
def threshOf (f : Frac) : Byte := BitVec.ofNat 8 (roundHalfUp f)

/-- The default `DUTY_THRESH[i]` (R7): what an entry that `Memory` does not list reads as. -/
def defaultThresh (i : Index) : Byte := threshOf (Config.dutyFrac i)

/-- The byte listed for an address, if there is one. -/
def Memory.find (m : Memory) (a : Nat) : Option Byte :=
  match m with
  | [] => none
  | c :: m => if c.1 = a then some c.2 else Memory.find m a

/-- `MemRead(i, 1)` (R14, R50): the 8-bit entry `DUTY_THRESH[i]`. It always succeeds and changes nothing (R53, R55). -/
def memRead (m : Memory) (i : Index) : Byte :=
  (Memory.find m i.toNat).getD (defaultThresh i)

/-- Addresses strictly rise from `lo`, lie in the table, and no entry repeats the default. -/
def Memory.wfFrom (lo : Nat) (m : Memory) : Bool :=
  match m with
  | [] => true
  | c :: m =>
    decide (lo ≤ c.1) && decide (c.1 < Config.tableLen) && (c.2 != defaultThresh (BitVec.ofNat 2 c.1)) &&
      Memory.wfFrom (c.1 + 1) m

/-- The canonical form of a duty-table image: equal tables are equal lists. -/
def Memory.wf (m : Memory) : Bool := Memory.wfFrom 0 m

/-- One table entry as an image: nothing where it repeats the default. -/
def Memory.cell (i : Index) (b : Byte) : Memory :=
  if b = defaultThresh i then [] else [(i.toNat, b)]

/-- The image of a whole table given as the build argument of R7. No operation of the block calls it: there is no
MemWrite (R14). -/
def Memory.ofTable (t0 t1 t2 t3 : Byte) : Memory :=
  Memory.cell 0 t0 ++ (Memory.cell 1 t1 ++ (Memory.cell 2 t2 ++ Memory.cell 3 t3))

/-! ### Register operations -/

/-- The register load of RESET (R173); the table and the environment's fields are no registers. -/
def loadReset (btn_b_n btn_a_n : Bit) (s : State) : State :=
  { State.resetWith btn_b_n btn_a_n with mem := s.mem, pins_ahead := s.pins_ahead, draws := s.draws }

/-- Both synchronizer chains take one sample (R91). -/
def shiftSync (btn_b_n btn_a_n : Bit) (s : State) : State :=
  { s with a_m := btn_a_n, a_s := s.a_m, a_p := s.a_s, b_m := btn_b_n, b_s := s.b_m, b_p := s.b_s }

/-- `last_index <- i; next_index <- (i + 1) mod 4` for `i = next_index` (R111, R114). -/
def advanceCursor (s : State) : State :=
  { s with last_index := s.next_index, next_index := s.next_index + 1 }

/-- The load of PWM_APPLY (R131): threshold, channel and run together, the counter held. -/
def loadPwm (thr : Byte) (dir : Bit) (s : State) : State :=
  { s with pwm_thr := thr, pwm_chan := dir, pwm_run := true }

/-- The counter's next value (R132): 0 after `MAX_COUNT - 1`, and from the unreachable 255 too (R33). -/
def nextCount (c : Byte) : Byte :=
  if c.toNat ≥ Config.maxCount - 1 then 0 else c + 1

/-- The counter's advance (R132). -/
def tickCounter (s : State) : State := { s with pwm_cnt := nextCount s.pwm_cnt }

end Sys2Proof.Machine
end

