-- ==== Sys2Proof/Machine/Flags.lean ====
section
/-! DEFINITION. Every flag computation of the spec: the falling-edge detects (R92), the flags' next-state equation (R95),
and the set and clear of each flag as instances of it. -/

namespace Sys2Proof.Machine

/-- R92: line A's synchronized level went from 1 to 0. -/
def fallA (s : State) : Bit := s.a_p && !s.a_s

/-- R92: line B's synchronized level went from 1 to 0. -/
def fallB (s : State) : Bit := s.b_p && !s.b_s

/-- R95's right-hand side: a set wins over a clear of the same cycle (R180). -/
def flagNext (set clr old : Bit) : Bit := set || (old && !clr)

/-- The set of SET_BTN: gated by `inited` (R93, R97), absorbed by a pending flag (R98). -/
def setBtnFlag (s : State) : State := { s with btn_flag := flagNext s.inited false s.btn_flag }

/-- The set of SET_DIR (R94, R97). -/
def setDirFlag (s : State) : State := { s with dir_flag := flagNext s.inited false s.dir_flag }

/-- A service's `clr_btn = 1`: the flag is cleared unless an enabled edge of line A sets it in the same cycle (R95). -/
def clearBtnFlag (s : State) : State :=
  { s with btn_flag := flagNext (s.inited && fallA s) true s.btn_flag }

/-- A service's `clr_dir = 1`, as `clearBtnFlag` for line B (R95). -/
def clearDirFlag (s : State) : State :=
  { s with dir_flag := flagNext (s.inited && fallB s) true s.dir_flag }

end Sys2Proof.Machine
end

