-- ==== Sys2Proof/Machine/Operands.lean ====
section
/-! DEFINITION. Where operands come from (R72) and the signals that a controller operation drives for the rest of its
cycle (R69). -/

namespace Sys2Proof.Machine

/-- The EV word of a state (R65). -/
def evOf (s : State) : EvWord := mkEv (fallB s) (fallA s)

/-- The CW word of a state (R65). -/
def cwOf (s : State) : CwWord := mkCw s.inited s.dir_flag s.btn_flag

/-- The controller operation a state selects (R67). -/
def ctlOp (s : State) : Instr := decodeCw (cwOf s)

/-- The operands of a PWM_APPLY: `apply_thr` and `apply_dir` (R69). -/
structure Drive where
  thr : Byte
  dir : Bit
deriving DecidableEq, Repr

/-- R69's `apply_idx`: the table index that a controller operation applies, none where `apply = 0`. -/
def applyIndex (op : Instr) (s : State) : Option Index :=
  match op with
  | .initApply => some s.next_index
  | .svcDir => some s.last_index
  | .svcDuty => some s.next_index
  | .svcIdle => none
  | .reset _ _ => none
  | .sync _ _ => none
  | .setBtn => none
  | .setDir => none
  | .noEvent => none
  | .pwmApply _ _ => none
  | .pwmTick => none
  | .pwmHold => none

/-- R69's `apply_dir`: the current direction, or its complement for SVC_DIR (R72). -/
def applyDir (op : Instr) (s : State) : Bit :=
  match op with
  | .svcDir => !s.dir
  | _ => s.dir

/-- R69's `apply` signal with its operands: `some` is `apply = 1`, with `apply_thr = MemRead(apply_idx, 1)`. -/
def applyDrive (op : Instr) (s : State) : Option Drive :=
  (applyIndex op s).map fun i => ⟨memRead s.mem i, applyDir op s⟩

/-- R69's `clr_btn`. -/
def clrBtn (op : Instr) : Bit :=
  match op with
  | .initApply => true
  | .svcDuty => true
  | _ => false

/-- R69's `clr_dir`. -/
def clrDir (op : Instr) : Bit :=
  match op with
  | .initApply => true
  | .svcDir => true
  | _ => false

/-- The PWM driver operation a state selects (R71). Where `apply = 0` the operand signals are not used (R69), and the
decode reads no bit of them. -/
def pwmOp (s : State) : Instr :=
  match applyDrive (ctlOp s) s with
  | some d => decodePw (mkPw true s.pwm_run) d.thr d.dir
  | none => decodePw (mkPw false s.pwm_run) 0 false

/-- The operations of one cycle (R65, R66, R170), all selected from the start-of-cycle state: RESET alone, or the EV
selection, one controller operation, one PWM driver operation and SYNC. They are listed in the order in which performing
them one after the other gives the cycle's simultaneous assignments (notes/assumptions/4.md): SYNC, whose registers the
edge detect reads, comes last. -/
def opsOf (w : InWord) (s : State) : List Instr :=
  if inRst w then [decodeIn w]
  else decodeEv (evOf s) ++ [ctlOp s, pwmOp s, decodeIn w]

end Sys2Proof.Machine
end

