-- ==== Sys2Proof/Machine/Controller.lean ====
section
/-! DEFINITION. The meanings of the controller (41_controller.md): INIT_APPLY, SVC_IDLE, SVC_DIR, SVC_DUTY. Each includes
the PWM_APPLY(thr, dir) of its pseudocode, which the PWM driver performs in the same cycle (R110 to R117); in a whole cycle
the PW decode selects that same PWM_APPLY, which then finds its values already loaded (R135, notes/assumptions/4.md). -/

namespace Sys2Proof.Machine

/-- INIT_APPLY (R111): apply the entry at `next_index`, advance the cursor, set `inited`, clear both flags. -/
def execInitApply (s : State) : Host.Outcome State Fault Refusal :=
  .next (loadPwm (memRead s.mem s.next_index) s.dir
    { advanceCursor (clearDirFlag (clearBtnFlag s)) with inited := true })

/-- SVC_IDLE (R112): no write. -/
def execSvcIdle (s : State) : Host.Outcome State Fault Refusal :=
  .next s

/-- SVC_DIR (R113): invert the direction and reapply the entry at `last_index` on the other channel. -/
def execSvcDir (s : State) : Host.Outcome State Fault Refusal :=
  .next (loadPwm (memRead s.mem s.last_index) (!s.dir) { clearDirFlag s with dir := !s.dir })

/-- SVC_DUTY (R114): apply the entry at `next_index` and advance the cursor. -/
def execSvcDuty (s : State) : Host.Outcome State Fault Refusal :=
  .next (loadPwm (memRead s.mem s.next_index) s.dir (advanceCursor (clearBtnFlag s)))

end Sys2Proof.Machine
end

