-- ==== Sys2Proof/Machine/FlagLayer.lean ====
section
/-! DEFINITION. The meanings of the flag layer (40_flag_layer.md): SYNC, SET_BTN, SET_DIR, NO_EVENT. -/

namespace Sys2Proof.Machine

/-- SYNC (R91). -/
def execSync (btn_b_n btn_a_n : Bit) (s : State) : Host.Outcome State Fault Refusal :=
  .next (shiftSync btn_b_n btn_a_n s)

/-- SET_BTN (R93): `if inited = 1 then btn_flag <- 1`, and no other state is touched (R90, R100). -/
def execSetBtn (s : State) : Host.Outcome State Fault Refusal :=
  .next (setBtnFlag s)

/-- SET_DIR (R94): `if inited = 1 then dir_flag <- 1`. -/
def execSetDir (s : State) : Host.Outcome State Fault Refusal :=
  .next (setDirFlag s)

/-- NO_EVENT (R96): no set; the clears of the cycle are its service's. -/
def execNoEvent (s : State) : Host.Outcome State Fault Refusal :=
  .next s

end Sys2Proof.Machine
end

