-- ==== Sys2Proof/Machine/PwmDriver.lean ====
section
/-! DEFINITION. The meanings of the PWM driver (42_pwm_driver.md): PWM_APPLY, PWM_TICK, PWM_HOLD. -/

namespace Sys2Proof.Machine

/-- PWM_APPLY thr, dir (R131). -/
def execPwmApply (thr : Byte) (dir : Bit) (s : State) : Host.Outcome State Fault Refusal :=
  .next (loadPwm thr dir s)

/-- PWM_TICK (R132). -/
def execPwmTick (s : State) : Host.Outcome State Fault Refusal :=
  .next (tickCounter s)

/-- PWM_HOLD (R133): the PWM clock is stopped and nothing changes. -/
def execPwmHold (s : State) : Host.Outcome State Fault Refusal :=
  .next s

end Sys2Proof.Machine
end

