-- ==== Sys2Proof/Machine/Reset.lean ====
section
/-! DEFINITION. The meaning of RESET (R173). -/

namespace Sys2Proof.Machine

/-- RESET (R173, R177): every register at its reset value, both chains at their line's sampled level. -/
def execReset (btn_b_n btn_a_n : Bit) (s : State) : Host.Outcome State Fault Refusal :=
  .next (loadReset btn_b_n btn_a_n s)

end Sys2Proof.Machine
end

