-- ==== Sys2Proof/Machine/Dispatch.lean ====
section
/-! DEFINITION. One arm per operation of the block. -/

namespace Sys2Proof.Machine

def exec (i : Instr) (s : State) : Host.Outcome State Fault Refusal :=
  match i with
  | .reset b a => Sys2Proof.Machine.execReset b a s
  | .sync b a => Sys2Proof.Machine.execSync b a s
  | .setBtn => Sys2Proof.Machine.execSetBtn s
  | .setDir => Sys2Proof.Machine.execSetDir s
  | .noEvent => Sys2Proof.Machine.execNoEvent s
  | .initApply => Sys2Proof.Machine.execInitApply s
  | .svcIdle => Sys2Proof.Machine.execSvcIdle s
  | .svcDir => Sys2Proof.Machine.execSvcDir s
  | .svcDuty => Sys2Proof.Machine.execSvcDuty s
  | .pwmApply thr dir => Sys2Proof.Machine.execPwmApply thr dir s
  | .pwmTick => Sys2Proof.Machine.execPwmTick s
  | .pwmHold => Sys2Proof.Machine.execPwmHold s

end Sys2Proof.Machine
end

