-- ==== Sys2Proof/Machine/Cycle.lean ====
section
/-! DEFINITION. One clock cycle as the composition of its operations (R65, R170), the sampling of the pins (R15), runs of
cycles, and R170's whole-cycle pseudocode written out as one function, which the composition is to agree with. -/

namespace Sys2Proof.Machine

/-- Perform operations one after the other, stopping at the first that does not answer a next state. -/
def runOps (l : List Instr) (s : State) : Host.Outcome State Fault Refusal :=
  match l with
  | [] => .next s
  | i :: l =>
    match exec i s with
    | .next t => runOps l t
    | .fault r => .fault r
    | .refused r => .refused r

/-- One clock cycle with the sampled IN word `w` (R65, R170). -/
def cycle (w : InWord) (s : State) : Host.Outcome State Fault Refusal := runOps (opsOf w s) s

/-- The IN word sampled this cycle: the next scripted one, or a draw of the free environment (R11, R15). -/
def pinWord (s : State) : InWord :=
  match s.pins_ahead with
  | w :: _ => w
  | [] => Config.pinSample s.draws

/-- The environment after this cycle's sample. -/
def takePin (s : State) : State :=
  match s.pins_ahead with
  | _ :: ws => { s with pins_ahead := ws }
  | [] => { s with draws := s.draws + 1 }

/-- Consecutive cycles with the sampled words `ws`. -/
def runWords (ws : List InWord) (s : State) : Host.Outcome State Fault Refusal :=
  match ws with
  | [] => .next s
  | w :: ws =>
    match cycle w s with
    | .next t => runWords ws t
    | .fault r => .fault r
    | .refused r => .refused r

/-- The start-of-cycle states of the cycles with sampled words `ws` (R15's `S_t`, one per word). -/
def statesOf (ws : List InWord) (s : State) : List State :=
  match ws with
  | [] => []
  | w :: ws =>
    s ::
      match cycle w s with
      | .next t => statesOf ws t
      | .fault _ => []
      | .refused _ => []

/-- The operations that consecutive cycles perform, in order. -/
def opsDone (ws : List InWord) (s : State) : List Instr :=
  match ws with
  | [] => []
  | w :: ws =>
    opsOf w s ++
      match cycle w s with
      | .next t => opsDone ws t
      | .fault _ => []
      | .refused _ => []

/-- R170's `Step(S, I)`, line by line: every right-hand side reads the start-of-cycle state or the input. The machine does
not run it; it is the text that `cycle` is compared with. -/
def wholeCycle (w : InWord) (s : State) : State :=
  if inRst w then
    { s with
      inited := false, next_index := 0, last_index := 0, dir := false, btn_flag := false, dir_flag := false,
      pwm_thr := 0, pwm_chan := false, pwm_run := false, pwm_cnt := 0,
      a_m := inBtnA w, a_s := inBtnA w, a_p := inBtnA w, b_m := inBtnB w, b_s := inBtnB w, b_p := inBtnB w }
  else
    let fall_a := s.a_p && !s.a_s
    let fall_b := s.b_p && !s.b_s
    let isInit := !s.inited
    let isDir := s.inited && s.dir_flag
    let isDuty := s.inited && !s.dir_flag && s.btn_flag
    let apply := isInit || isDir || isDuty
    let idx := if isDir then s.last_index else s.next_index
    let d := if isDir then !s.dir else s.dir
    let clr_btn := isInit || isDuty
    let clr_dir := isInit || isDir
    { s with
      inited := s.inited || isInit
      last_index := if isInit || isDuty then idx else s.last_index
      next_index := if isInit || isDuty then idx + 1 else s.next_index
      dir := if isDir then d else s.dir
      btn_flag := (s.inited && fall_a) || (s.btn_flag && !clr_btn)
      dir_flag := (s.inited && fall_b) || (s.dir_flag && !clr_dir)
      pwm_thr := if apply then memRead s.mem idx else s.pwm_thr
      pwm_chan := if apply then d else s.pwm_chan
      pwm_run := if apply then true else s.pwm_run
      pwm_cnt :=
        if apply then s.pwm_cnt
        else if s.pwm_run then (if s.pwm_cnt.toNat ≥ 254 then 0 else s.pwm_cnt + 1)
        else s.pwm_cnt
      a_m := inBtnA w, a_s := s.a_m, a_p := s.a_s
      b_m := inBtnB w, b_s := s.b_m, b_p := s.b_s }

end Sys2Proof.Machine
end

