-- ==== Sys2Proof/Machine/Step.lean ====
section
/-! DEFINITION. One step is one clock cycle (R10, R170): sample the pins, then perform the cycle's operations. -/

namespace Sys2Proof.Machine

/-- One clock cycle with the environment's next IN word (R15, R170). -/
def step (s : State) : Host.Outcome State Fault Refusal := cycle (pinWord s) (takePin s)

/-- The IN word `w` placed before the words the environment is scripted to drive, so that the next step samples it. This
stands for an environment that drives the pins: a program is loaded from outside (notes/assumptions/3.md). -/
def State.withFetchWord (s : State) (nbits w : Nat) : State :=
  { s with pins_ahead := BitVec.ofNat 3 (w % 2 ^ nbits) :: s.pins_ahead }

end Sys2Proof.Machine
end

