-- ==== Sys2Proof/Machine/Build.lean ====
section
/-! DEFINITION. Building the block: the MODE switch (R6) and the table argument (R7), both settled before any cycle. -/

namespace Sys2Proof.Machine

/-- The block built with a mode and a duty table, at the reset state for two sampled line levels. The mode outside this
spec is refused (R6, R150); no rule reads MODE afterwards, so State holds none. -/
def build (m : Mode) (t0 t1 t2 t3 : Byte) (btn_b_n btn_a_n : Bit) : Host.Outcome State Fault Refusal :=
  match m with
  | .buttonDutyCycle => .next { State.resetWith btn_b_n btn_a_n with mem := Memory.ofTable t0 t1 t2 t3 }
  | .potentiometerDutyCycleWithHBridge => .refused .modeOutsideSpec

end Sys2Proof.Machine
end

