-- ==== Sys2Proof/Machine/Stimulus.lean ====
section
/-! DEFINITION. Stimulus programs: the IN words each directive drives (R76, R77) and a program's encoding as text. -/

namespace Sys2Proof.Machine

/-- The IN words a directive drives, one per cycle (R76, R77). -/
def directiveWords (d : Directive) : List InWord :=
  match d with
  | .rst k => List.replicate k 0b111
  | .idle k => List.replicate k 0b011
  | .holdA k => List.replicate k 0b010
  | .holdB k => List.replicate k 0b001
  | .holdAB k => List.replicate k 0b000
  | .raw k n => List.replicate k (BitVec.ofNat 3 n)
  | .por => List.replicate 1 0b111
  | .pressA => List.replicate 4 0b010 ++ List.replicate 4 0b011
  | .pressB => List.replicate 4 0b001 ++ List.replicate 4 0b011
  | .pressAB => List.replicate 4 0b000 ++ List.replicate 4 0b011
  | .wait k => List.replicate k 0b011

/-- The IN words of a program, in cycle order (R76). -/
def programWords (p : List Directive) : List InWord := p.flatMap directiveWords

/-- A program's encoding: one octal digit per cycle (R76). -/
def programText (p : List Directive) : List Char := (programWords p).map wordDigit

end Sys2Proof.Machine
end

