-- ==== Sys2Proof/Machine/Transaction.lean ====
section
/-! DEFINITION. The transaction level (R10, R103, R117): its state, its three moves, and the view of a block state at it.
Its service is written from 41_controller.md on its own, without the synchronizer, the counter or the clock cycle. -/

namespace Sys2Proof.Machine

/-- The transaction-level state: the flags, the cursor, the direction and the PWM configuration (R10), with `inited`
(R103 reads it) and the table. -/
structure TxState where
  inited : Bit
  next_index : Index
  last_index : Index
  dir : Bit
  btn_flag : Bit
  dir_flag : Bit
  pwm_thr : Byte
  pwm_chan : Bit
  pwm_run : Bit
  mem : Memory
deriving DecidableEq, Repr

/-- `EdgeA` (R103). -/
def txEdgeA (x : TxState) : TxState := if x.inited then { x with btn_flag := true } else x

/-- `EdgeB` (R103). -/
def txEdgeB (x : TxState) : TxState := if x.inited then { x with dir_flag := true } else x

/-- One duty step: INIT_APPLY's and SVC_DUTY's shared effect (R111, R114). -/
def txApplyNext (x : TxState) : TxState :=
  { x with
    last_index := x.next_index, next_index := x.next_index + 1, btn_flag := false
    pwm_thr := memRead x.mem x.next_index, pwm_chan := x.dir, pwm_run := true }

/-- `Service` (R117): the operation that R67 selects, together with its PWM_APPLY, the clears unconditional. -/
def txService (x : TxState) : TxState :=
  if !x.inited then { txApplyNext x with inited := true, dir_flag := false }
  else if x.dir_flag then
    { x with
      dir := !x.dir, dir_flag := false
      pwm_thr := memRead x.mem x.last_index, pwm_chan := !x.dir, pwm_run := true }
  else if x.btn_flag then txApplyNext x
  else x

/-- One move. -/
def txMove (m : Move) (x : TxState) : TxState :=
  match m with
  | .edgeA => txEdgeA x
  | .edgeB => txEdgeB x
  | .service => txService x

/-- A run: a sequence of moves (R58). -/
def txRun (ms : List Move) (x : TxState) : TxState :=
  match ms with
  | [] => x
  | m :: ms => txRun ms (txMove m x)

/-- A block state at the transaction level. -/
def txOf (s : State) : TxState where
  inited := s.inited
  next_index := s.next_index
  last_index := s.last_index
  dir := s.dir
  btn_flag := s.btn_flag
  dir_flag := s.dir_flag
  pwm_thr := s.pwm_thr
  pwm_chan := s.pwm_chan
  pwm_run := s.pwm_run
  mem := s.mem

end Sys2Proof.Machine
end

