-- ==== Sys2Proof/Machine/Outputs.lean ====
section
/-! DEFINITION. The two output lines (R140, R141), functions of the state alone (R38), the descriptive PWMCFG word (R34)
and the PWM frequency (R145). -/

namespace Sys2Proof.Machine

/-- R140's `match`: the unsigned compare of counter and threshold. -/
def pwmMatch (s : State) : Bit := decide (s.pwm_cnt.toNat < s.pwm_thr.toNat)

/-- The output line `pwm_a`: channel A, forward (R140). -/
def pwmA (s : State) : Bit := s.pwm_run && !s.pwm_chan && pwmMatch s

/-- The output line `pwm_b`: channel B, backward (R140). -/
def pwmB (s : State) : Bit := s.pwm_run && s.pwm_chan && pwmMatch s

/-- The output of the channel that `pwm_chan` selects (R30). -/
def activeOut (s : State) : Bit := if s.pwm_chan then pwmB s else pwmA s

/-- The output of the other channel (R141). -/
def inactiveOut (s : State) : Bit := if s.pwm_chan then pwmA s else pwmB s

/-- R34's PWMCFG word: a description of five fields for traces and vectors, read by no operation. -/
def pwmcfg (s : State) : BitVec 13 :=
  Config.wgm ++ Config.prescale ++ BitVec.ofBool s.pwm_run ++ BitVec.ofBool s.pwm_chan ++ s.pwm_thr

/-- The PWM frequency in hertz, `F_CLK / 255` (R145), for whatever `F_CLK` is. -/
def pwmFrequency : Rat := (Config.fClk : Rat) / (Config.maxCount : Rat)

end Sys2Proof.Machine
end

