-- ==== Sys2Proof/Safety.lean ====
section
/-! DEFINITION. The terms in which claims about runs are made: R37's invariant of reachable states, the invariant behind
R102 and R179, legal states, and reachability from a reset. There is no unsafe stop to exclude: the block raises no fault
(R150), so a safe run is one that stays in legal states. -/

namespace Sys2Proof.Machine

/-- R37, `inited = 1`: the cursor, the PWM configuration and the counter agree. -/
abbrev RunningInv (s : State) : Prop :=
  s.next_index = s.last_index + 1 ∧ s.pwm_thr = memRead s.mem s.last_index ∧ s.pwm_chan = s.dir ∧
    s.pwm_run = true ∧ s.pwm_cnt.toNat < Config.maxCount

/-- R37, `inited = 0`: every field holds its reset value, so each line's chain holds one level (R173). -/
abbrev BootInv (s : State) : Prop :=
  s.next_index = 0 ∧ s.last_index = 0 ∧ s.dir = false ∧ s.btn_flag = false ∧ s.dir_flag = false ∧ s.pwm_thr = 0 ∧
    s.pwm_chan = false ∧ s.pwm_run = false ∧ s.pwm_cnt = 0 ∧
    s.a_s = s.a_m ∧ s.a_p = s.a_m ∧ s.b_s = s.b_m ∧ s.b_p = s.b_m

/-- R37 as a whole. -/
abbrev ConfigInv (s : State) : Prop :=
  (s.inited = true → RunningInv s) ∧ (s.inited = false → BootInv s)

/-- What makes R102 and R179 inductive: no flag is pending before INIT_APPLY; a pending toggle was set by an edge of the
cycle before, so line B's chain now ends in two lows or a rise; and a duty step pending beside it likewise for line A. -/
abbrev EdgeInv (s : State) : Prop :=
  (s.inited = false → s.btn_flag = false ∧ s.dir_flag = false) ∧
    (s.dir_flag = true → s.b_p = false) ∧
    (s.dir_flag = true → s.btn_flag = true → s.a_p = false)

/-- The states a run from reset stays in. -/
abbrev LegalState (s : State) : Prop :=
  Memory.wf s.mem = true ∧ ConfigInv s ∧ EdgeInv s

/-- The states that runs from a reset reach (R174, R178), whatever the table, the line levels and the input words: the
environment is free to drive any word in any cycle (R11) and its script is no part of the block. -/
inductive Reachable : State → Prop where
  | reset (btn_b_n btn_a_n : Bit) (s : State) (h : Memory.wf s.mem = true) : Reachable (loadReset btn_b_n btn_a_n s)
  | cycle (w : InWord) {s t : State} (h : Reachable s) (e : cycle w s = .next t) : Reachable t
  | script (ws : List InWord) (n : Nat) {s : State} (h : Reachable s) :
      Reachable { s with pins_ahead := ws, draws := n }

/-- R59: along the cycles `ws` from `s` to `t`, `op` ran in some cycle that turned `flag` from 0 to 1, and the flag was 1 at
the start of every cycle after it, `t` included. -/
abbrev SetAndHeld (op : Instr) (flag : State → Bit) (ws : List InWord) (s t : State) : Prop :=
  ∃ (before : List InWord) (w : InWord) (after : List InWord) (u v : State),
    ws = before ++ w :: after ∧ runWords before s = .next u ∧ cycle w u = .next v ∧ runWords after v = .next t ∧
      op ∈ opsOf w u ∧ flag u = false ∧ flag v = true ∧ (∀ x ∈ statesOf after v, flag x = true) ∧ flag t = true

/-- No cycle of the words is a reset. -/
abbrev NoReset (ws : List InWord) : Prop := ∀ w ∈ ws, inRst w = false

end Sys2Proof.Machine
end

