-- ==== Sys2Proof/Certificates/Slice0/Obligations.lean ====
section
/-! DEFINITION. The statements for the provers. Each docstring names the rule of spec/ that its statement formalises, or
the section it is read from. A record update `{ s with … }` in a statement is the FRAME: every field that is not named,
the duty table and the environment's two fields among them, is unchanged. -/

open Sys2Proof Sys2Proof.Machine

/-! ### Encoding -/

/-- Decode after encode, over 30_encoding.md's four tables, for every operation, every operand and every value of the
don't-care bits: the word selects the operation, and nothing else unless it is an EV word whose other bit is set too. -/
def Obligations.DecodeEncodeRoundTrip : Prop :=
  ∀ (x : DontCare) (i : Instr), i.wellFormed = true →
    i ∈ decode (encodeWith x i) ∧
    (i.format ≠ .ev → decode (encodeWith x i) = [i]) ∧
    decode (encode i) = [i]

/-- 30_encoding.md, section IN: the operation that each IN word selects, with its operands. R66 says that the button bits
are ignored when `rst = 1`; that RESET takes them for the synchronizer's load is R173's, as U13 of
93_implementation_defined.md settles. SYNC stands last, as in R170's text (notes/assumptions/4.md). -/
def Obligations.InWordDecode : Prop :=
  ∀ (w : InWord) (s : State),
    (inRst w = true →
      decodeIn w = .reset (inBtnB w) (inBtnA w) ∧ opsOf w s = [.reset (inBtnB w) (inBtnA w)]) ∧
    (inRst w = false →
      decodeIn w = .sync (inBtnB w) (inBtnA w) ∧
      opsOf w s = decodeEv (evOf s) ++ [ctlOp s, pwmOp s, .sync (inBtnB w) (inBtnA w)])

/-- R67, whole: the decode; exactly one row for each of the 8 words; with both flags pending SVC_DIR runs and `btn_flag`
stays set; the three words with `inited = 0` and a flag set do not arise in a run from reset. -/
def Obligations.CwWordDecode : Prop :=
  (∀ s : State, ctlOp s =
    if s.inited = false then .initApply
    else if s.dir_flag = true then .svcDir
    else if s.btn_flag = true then .svcDuty else .svcIdle) ∧
  (∀ w : CwWord, opcodeTable.filter (fun r => r.covers (.cw w)) = [(decodeCw w).row]) ∧
  (∀ (s : State) (w : InWord), inRst w = false → s.inited = true → s.dir_flag = true → s.btn_flag = true →
    ∃ t, cycle w s = .next t ∧ t.btn_flag = true) ∧
  (∀ s : State, Reachable s → s.inited = false → s.dir_flag = false ∧ s.btn_flag = false)

/-- R69, whole: `apply` with `apply_idx` and `apply_dir`, `clr_btn` and `clr_dir`, for each controller operation, and
`apply_thr = MemRead(apply_idx, 1)`. -/
def Obligations.ControllerSignals : Prop :=
  ∀ s : State,
    (applyDrive .initApply s = some ⟨memRead s.mem s.next_index, s.dir⟩ ∧
      clrBtn .initApply = true ∧ clrDir .initApply = true) ∧
    (applyDrive .svcIdle s = none ∧ clrBtn .svcIdle = false ∧ clrDir .svcIdle = false) ∧
    (applyDrive .svcDir s = some ⟨memRead s.mem s.last_index, !s.dir⟩ ∧
      clrBtn .svcDir = false ∧ clrDir .svcDir = true) ∧
    (applyDrive .svcDuty s = some ⟨memRead s.mem s.next_index, s.dir⟩ ∧
      clrBtn .svcDuty = true ∧ clrDir .svcDuty = false)

/-- R71, whole: the decode of `{apply, pwm_run}`, PWM_APPLY's operands being R69's signals, and exactly one row for each
of the 4 words. -/
def Obligations.PwWordDecode : Prop :=
  (∀ s : State,
    (∀ d, applyDrive (ctlOp s) s = some d → pwmOp s = .pwmApply d.thr d.dir) ∧
    (applyDrive (ctlOp s) s = none → s.pwm_run = true → pwmOp s = .pwmTick) ∧
    (applyDrive (ctlOp s) s = none → s.pwm_run = false → pwmOp s = .pwmHold)) ∧
  (∀ (w : PwWord) (thr : Byte) (d : Bit),
    (opcodeTable.filter fun r => r.covers (.pw w thr d)).map (·.mnemonic) = [(decodePw w thr d).row.mnemonic])

/-- 30_encoding.md, section EV: the two bits are independent, and performing both set operations gives the same state in
either order (the spec marks that last sentence of R70 as its own inference). -/
def Obligations.EvWordDecode : Prop :=
  (∀ s : State,
    (.setBtn ∈ decodeEv (evOf s) ↔ fallA s = true) ∧
    (.setDir ∈ decodeEv (evOf s) ↔ fallB s = true) ∧
    (.noEvent ∈ decodeEv (evOf s) ↔ fallA s = false ∧ fallB s = false)) ∧
  (∀ w : EvWord, opcodeTable.filter (fun r => r.covers (.ev w)) = (decodeEv w).map Instr.row) ∧
  (∀ s : State, ∃ t, runOps [.setBtn, .setDir] s = .next t ∧ runOps [.setDir, .setBtn] s = .next t)

/-- Seven words written out from 30_encoding.md's tables, at least one in each format, and a refused one. Reading a bare
table word as an IN word, and refusing a number that is too wide for IN, is the model's choice
(notes/assumptions/3.md). -/
def Obligations.TableWordsDecode : Prop :=
  decodeTableWord 8 0b101 = some (.reset false true) ∧
  decodeTableWord 8 0b010 = some (.sync true false) ∧
  decodeTableWord 8 0b1000 = none ∧
  decodeFormatWord .ev 0b11 0 false = [.setBtn, .setDir] ∧
  decodeFormatWord .cw 0b111 0 false = [.svcDir] ∧
  decodeFormatWord .cw 0b101 0 false = [.svcDuty] ∧
  decodeFormatWord .pw 0b11 64 true = [.pwmApply 64 true] ∧
  decodeFormatWord .pw 0b01 64 true = [.pwmTick]

/-- 30_encoding.md, section Formats: every cycle performs RESET alone, or SYNC with one EV selection, exactly one
controller operation and exactly one PWM driver operation, an apply exactly when the controller drives one. -/
def Obligations.CycleOperationsWellComposed : Prop :=
  ∀ (w : InWord) (s : State), cycleWellFormed (opsOf w s) = true

/-! ### The step -/

/-- A step runs the operation decoded from the sampled IN word: for RESET the step is `exec` of it; for SYNC the step
performs the operations that the EV, CW and PW words select and then `exec` of SYNC. The word is the next scripted one, or
a draw of the free environment (the model's own fields, notes/assumptions/1.md). -/
def Obligations.StepRunsDecodedWord : Prop :=
  (∀ (s : State) (w : InWord) (ws : List InWord), s.pins_ahead = w :: ws →
    (inRst w = true → step s = exec (decodeIn w) { s with pins_ahead := ws }) ∧
    (inRst w = false → ∃ u,
      runOps (decodeEv (evOf s) ++ [ctlOp s, pwmOp s]) { s with pins_ahead := ws } = .next u ∧
      step s = exec (decodeIn w) u)) ∧
  (∀ s : State, s.pins_ahead = [] →
    step s = cycle (Config.pinSample s.draws) { s with draws := s.draws + 1 })

/-- R170, whole: the composition of a cycle's operations is `Step(S, I)`. -/
def Obligations.CycleIsWholeStep : Prop :=
  ∀ (w : InWord) (s : State), cycle w s = .next (wholeCycle w s)

/-- R150, whole: every operation and every cycle is defined in every state and for every input, there is no fault to
record, and the refusal that is left is that of a build outside the spec. -/
def Obligations.NothingFaultsOrStalls : Prop :=
  (∀ (i : Instr) (s : State), ∃ t, exec i s = .next t) ∧
  (∀ (w : InWord) (s : State), ∃ t, cycle w s = .next t) ∧
  (∀ s : State, ∃ t, step s = .next t) ∧
  (∀ _ : Fault, False) ∧
  (∀ (t0 t1 t2 t3 : Byte) (b a : Bit), ∃ r, build .potentiometerDutyCycleWithHBridge t0 t1 t2 t3 b a = .refused r)

/-- 00_scope.md, Scope and Implementation parameters: the other mode is refused (R6). What a build in button mode gives, the
reset state of R173 holding the table that R7 lets a model take as an argument, is the model's reading
(notes/assumptions/5.md and 6.md). -/
def Obligations.OtherModeRefused : Prop :=
  ∀ (t0 t1 t2 t3 : Byte) (b a : Bit),
    build .potentiometerDutyCycleWithHBridge t0 t1 t2 t3 b a = .refused .modeOutsideSpec ∧
    build .buttonDutyCycle t0 t1 t2 t3 b a =
      .next { State.resetWith b a with mem := Memory.ofTable t0 t1 t2 t3 }

/-! ### Reset -/

/-- R173, whole: the load, in any cycle and from any state; a later reset cycle's samples replace an earlier one's; with
both buttons released all six chain registers are 1 and PWMCFG is 0x1400. -/
def Obligations.ResetEffect : Prop :=
  (∀ (b a : Bit) (s : State), exec (.reset b a) s = .next
    { s with
      inited := false, next_index := 0, last_index := 0, dir := false, btn_flag := false, dir_flag := false,
      pwm_thr := 0, pwm_chan := false, pwm_run := false, pwm_cnt := 0,
      a_m := a, a_s := a, a_p := a, b_m := b, b_s := b, b_p := b }) ∧
  (∀ (w : InWord) (s : State), inRst w = true → cycle w s = exec (.reset (inBtnB w) (inBtnA w)) s) ∧
  (∀ (b a b' a' : Bit) (s : State), runOps [.reset b a, .reset b' a'] s = exec (.reset b' a') s) ∧
  (∀ s : State, ∃ t, exec (.reset true true) s = .next t ∧ pwmcfg t = 0x1400 ∧
    t.a_m = true ∧ t.a_s = true ∧ t.a_p = true ∧ t.b_m = true ∧ t.b_s = true ∧ t.b_p = true)

/-- `State.reset` is what RESET loads when both buttons are released (the released lines and the empty script are the
model's choice, notes/assumptions/2.md), and it is a legal state. -/
def Obligations.ResetStateIsLegal : Prop :=
  exec (.reset true true) State.reset = .next State.reset ∧ LegalState State.reset ∧
  (∀ b a : Bit, LegalState (State.resetWith b a))

/-- 70_reset_and_hazards.md, section Boot: after the last reset cycle one cycle of INIT_APPLY with both outputs low, then
the loop, with entry 0 applied on channel A. -/
def Obligations.BootSequence : Prop :=
  ∀ (s : State) (w0 w1 : InWord), inRst w0 = true → inRst w1 = false →
    ∃ t u, runWords [w0] s = .next t ∧ runWords [w0, w1] s = .next u ∧
      t.inited = false ∧ .initApply ∈ opsOf w1 t ∧ pwmA t = false ∧ pwmB t = false ∧
      u.inited = true ∧ u.pwm_run = true ∧ u.pwm_thr = memRead s.mem 0 ∧ u.pwm_chan = false ∧
      u.last_index = 0 ∧ u.next_index = 1 ∧ u.pwm_cnt = 0 ∧ ctlOp u = .svcIdle

/-! ### Flag layer -/

/-- 40_flag_layer.md, section SYNC: both chains take one sample, and nothing else changes. -/
def Obligations.SyncEffect : Prop :=
  ∀ (b a : Bit) (s : State), exec (.sync b a) s = .next
    { s with a_m := a, a_s := s.a_m, a_p := s.a_s, b_m := b, b_s := s.b_m, b_p := s.b_s }

/-- 40_flag_layer.md, sections SYNC and falling-edge detect, over runs: the chains are a pure delay, and a fall is detected
exactly when consecutive samples read 1 and then 0. The first of the three cycles may be a reset cycle, whose sample fills
the chain (the spec marks the delay and the "if and only if" as its own inferences). -/
def Obligations.SynchronizerIsPureDelay : Prop :=
  ∀ (s : State) (w0 w1 w2 : InWord), inRst w1 = false → inRst w2 = false →
    ∃ t, runWords [w0, w1, w2] s = .next t ∧
      t.a_m = inBtnA w2 ∧ t.a_s = inBtnA w1 ∧ t.a_p = inBtnA w0 ∧
      t.b_m = inBtnB w2 ∧ t.b_s = inBtnB w1 ∧ t.b_p = inBtnB w0 ∧
      (fallA t = true ↔ inBtnA w0 = true ∧ inBtnA w1 = false) ∧
      (fallB t = true ↔ inBtnB w0 = true ∧ inBtnB w1 = false)

/-- R93, whole: the meaning and its frame; the EV bit that selects it; in a cycle it wins over a clear and is dropped while
`inited = 0`; a pending flag absorbs it. -/
def Obligations.SetBtnEffect : Prop :=
  (∀ s : State, exec .setBtn s = .next { s with btn_flag := s.inited || s.btn_flag }) ∧
  (∀ w : EvWord, .setBtn ∈ decodeEv w ↔ w[0] = true) ∧
  (∀ (s : State) (w : InWord), inRst w = false → fallA s = true →
    ∃ t, cycle w s = .next t ∧ t.btn_flag = s.inited)

/-- R94, whole: as R93 for line B; and in a run from reset no edge of line B meets the clear of SVC_DIR. -/
def Obligations.SetDirEffect : Prop :=
  (∀ s : State, exec .setDir s = .next { s with dir_flag := s.inited || s.dir_flag }) ∧
  (∀ w : EvWord, .setDir ∈ decodeEv w ↔ w[1] = true) ∧
  (∀ (s : State) (w : InWord), inRst w = false → fallB s = true →
    ∃ t, cycle w s = .next t ∧ t.dir_flag = s.inited) ∧
  (∀ s : State, Reachable s → ctlOp s = .svcDir → fallB s = false)

/-- R96, whole. -/
def Obligations.NoEventEffect : Prop :=
  (∀ s : State, exec .noEvent s = .next s) ∧
  (∀ w : EvWord, .noEvent ∈ decodeEv w ↔ w = 0b00) ∧
  (∀ (s : State) (w : InWord), inRst w = false → fallA s = false → fallB s = false →
    ∃ t, cycle w s = .next t ∧
      t.btn_flag = (s.btn_flag && !clrBtn (ctlOp s)) ∧ t.dir_flag = (s.dir_flag && !clrDir (ctlOp s)))

/-- R95, whole: both next-state equations, and the set that wins over a clear. -/
def Obligations.FlagEquations : Prop :=
  ∀ (s : State) (w : InWord), inRst w = false →
    ∃ t, cycle w s = .next t ∧
      t.btn_flag = ((s.inited && fallA s) || (s.btn_flag && !clrBtn (ctlOp s))) ∧
      t.dir_flag = ((s.inited && fallB s) || (s.dir_flag && !clrDir (ctlOp s))) ∧
      (s.inited = true → fallA s = true → clrBtn (ctlOp s) = true → t.btn_flag = true) ∧
      (s.inited = true → fallB s = true → clrDir (ctlOp s) = true → t.dir_flag = true)

/-- R100, whole: a flag-set operation writes its own flag only; that flag's new value depends on `inited` and on its own old
value and on nothing else, the other flag among it; and an edge causes no apply: states that differ in the synchronizers
alone select the same controller and PWM driver operations. -/
def Obligations.FlagSetTouchesOnlyItsFlag : Prop :=
  (∀ s t : State, exec .setBtn s = .next t → t = { s with btn_flag := t.btn_flag }) ∧
  (∀ s t : State, exec .setDir s = .next t → t = { s with dir_flag := t.dir_flag }) ∧
  (∀ s s' t t' : State, s.inited = s'.inited → s.btn_flag = s'.btn_flag →
    exec .setBtn s = .next t → exec .setBtn s' = .next t' → t.btn_flag = t'.btn_flag) ∧
  (∀ s s' t t' : State, s.inited = s'.inited → s.dir_flag = s'.dir_flag →
    exec .setDir s = .next t → exec .setDir s' = .next t' → t.dir_flag = t'.dir_flag) ∧
  (∀ (s : State) (am as ap bm bs bp : Bit),
    ctlOp { s with a_m := am, a_s := as, a_p := ap, b_m := bm, b_s := bs, b_p := bp } = ctlOp s ∧
    pwmOp { s with a_m := am, a_s := as, a_p := ap, b_m := bm, b_s := bs, b_p := bp } = pwmOp s)

/-- R98, whole: at the transaction level any number of edges before a service are one event (for a button-A run: one
SVC_DUTY, one index advance), and a set of a pending flag changes nothing. -/
def Obligations.CoalescingIsOneService : Prop :=
  (∀ (n : Nat) (x : TxState), x.inited = true → x.dir_flag = false →
    txRun (List.replicate (n + 1) .edgeA ++ [.service]) x = txApplyNext x ∧
    (txApplyNext x).next_index = x.next_index + 1 ∧ (txApplyNext x).last_index = x.next_index ∧
    (txApplyNext x).btn_flag = false) ∧
  (∀ (n : Nat) (x : TxState), x.inited = true →
    txRun (List.replicate (n + 1) .edgeB ++ [.service]) x = txRun [.edgeB, .service] x ∧
    (txRun [.edgeB, .service] x).dir = !x.dir) ∧
  (∀ s : State, s.btn_flag = true → exec .setBtn s = .next s) ∧
  (∀ s : State, s.dir_flag = true → exec .setDir s = .next s)

/-- 40_flag_layer.md, Enable, coalescing and guarantees: one line never has falling edges in two consecutive cycles, and a
toggle is never pending in two consecutive cycles of a run from reset (the spec marks R102 as its own inference). -/
def Obligations.NoConsecutiveFalls : Prop :=
  ∀ (s t : State) (w : InWord), inRst w = false → cycle w s = .next t →
    (fallA s = true → fallA t = false) ∧ (fallB s = true → fallB t = false) ∧
    (EdgeInv s → t.dir_flag = true → fallB s = true ∧ s.inited = true ∧ s.dir_flag = false)

/-- 20_memory.md, Ordering and synchronisation: a flag that is 1 at the start of cycle t and was 0 some cycles before was
set by a SET operation of a cycle u between, and held 1 at the start of every cycle from u + 1 to t (the spec marks R59's
reading of the source's guarantee as its own inference). -/
def Obligations.PendingFlagHadItsEdge : Prop :=
  ∀ (ws : List InWord) (s t : State), runWords ws s = .next t →
    (s.btn_flag = false → t.btn_flag = true → SetAndHeld .setBtn State.btn_flag ws s t) ∧
    (s.dir_flag = false → t.dir_flag = true → SetAndHeld .setDir State.dir_flag ws s t)

/-- The invariant behind R102 and R179 is kept by every step, from every state that has it. -/
def Obligations.EdgeInvariantKept : Prop :=
  ∀ s t : State, EdgeInv s → step s = .next t → EdgeInv t

/-- 70_reset_and_hazards.md, Hazards: in runs from reset no two falling edges of a line are merged: over any cycles after
INIT_APPLY, services done and still pending are exactly the events there were, line by line (the spec marks R179 as its
own inference). -/
def Obligations.EveryDetectedFallIsServedOnce : Prop :=
  ∀ (ws : List InWord) (s t : State), EdgeInv s → s.inited = true → NoReset ws → runWords ws s = .next t →
    (opsDone ws s).count .svcDuty + t.btn_flag.toNat = s.btn_flag.toNat + (opsDone ws s).count .setBtn ∧
    (opsDone ws s).count .svcDir + t.dir_flag.toNat = s.dir_flag.toNat + (opsDone ws s).count .setDir

/-! ### Controller -/

/-- R111, whole: the meaning from `inited = 0`; its encoding; from reset it applies entry 0 forward and leaves the cursor
at 1; and it runs once per reset, since every other cycle without reset leaves `inited` at 1. -/
def Obligations.InitApplyEffect : Prop :=
  (∀ s : State, s.inited = false → exec .initApply s = .next
    { s with
      last_index := s.next_index, next_index := s.next_index + 1, inited := true, btn_flag := false,
      dir_flag := false, pwm_thr := memRead s.mem s.next_index, pwm_chan := s.dir, pwm_run := true }) ∧
  (∀ s : State, ctlOp s = .initApply ↔ s.inited = false) ∧
  (∀ b a : Bit, ∃ t, exec .initApply (State.resetWith b a) = .next t ∧ t.last_index = 0 ∧ t.next_index = 1 ∧
    t.inited = true ∧ t.pwm_thr = 0 ∧ t.pwm_chan = false ∧ t.pwm_run = true) ∧
  (∀ (w : InWord) (s t : State), inRst w = false → cycle w s = .next t → t.inited = true)

/-- R112, whole: no write; its encoding; and in its cycle the cursor, the direction and the PWM configuration are
unchanged, the flags follow this cycle's edges, and the PWM driver ticks where it runs. -/
def Obligations.SvcIdleEffect : Prop :=
  (∀ s : State, exec .svcIdle s = .next s) ∧
  (∀ s : State, ctlOp s = .svcIdle ↔ s.inited = true ∧ s.dir_flag = false ∧ s.btn_flag = false) ∧
  (∀ (s : State) (w : InWord), inRst w = false → ctlOp s = .svcIdle → ∃ t, cycle w s = .next t ∧
    t.next_index = s.next_index ∧ t.last_index = s.last_index ∧ t.dir = s.dir ∧ t.pwm_thr = s.pwm_thr ∧
    t.pwm_chan = s.pwm_chan ∧ t.pwm_run = s.pwm_run ∧ t.btn_flag = fallA s ∧ t.dir_flag = fallB s) ∧
  (∀ s : State, Reachable s → ctlOp s = .svcIdle → pwmOp s = .pwmTick)

/-- R113, whole: the meaning and frame; its encoding; a duty step pending beside it is served next in a run from reset; the
threshold of a state that meets R37 is unchanged; and two of them restore direction and channel, both back to back and
over any cycles that perform exactly two, whatever else runs between (with no SVC_DUTY, the threshold stands too). -/
def Obligations.SvcDirEffect : Prop :=
  (∀ s : State, exec .svcDir s = .next
    { s with
      dir := !s.dir, dir_flag := s.inited && fallB s,
      pwm_thr := memRead s.mem s.last_index, pwm_chan := !s.dir, pwm_run := true }) ∧
  (∀ s : State, ctlOp s = .svcDir ↔ s.inited = true ∧ s.dir_flag = true) ∧
  (∀ (s t : State) (w : InWord), Reachable s → inRst w = false → ctlOp s = .svcDir → s.btn_flag = true →
    cycle w s = .next t → ctlOp t = .svcDuty) ∧
  (∀ s t : State, RunningInv s → exec .svcDir s = .next t → t.pwm_thr = s.pwm_thr) ∧
  (∀ s t : State, RunningInv s → runOps [.svcDir, .svcDir] s = .next t →
    t.dir = s.dir ∧ t.pwm_chan = s.pwm_chan) ∧
  (∀ (ws : List InWord) (s t : State), s.inited = true → RunningInv s → NoReset ws → runWords ws s = .next t →
    (opsDone ws s).count .svcDir = 2 →
    t.dir = s.dir ∧ t.pwm_chan = s.pwm_chan ∧
      ((opsDone ws s).count .svcDuty = 0 → t.pwm_thr = s.pwm_thr))

/-- R114, whole: the meaning and frame; its encoding; with `next_index = 3` the last entry of the default table is applied
and the cursor wraps; a step onto entry 0 turns the motor off and keeps the direction. -/
def Obligations.SvcDutyEffect : Prop :=
  (∀ s : State, exec .svcDuty s = .next
    { s with
      last_index := s.next_index, next_index := s.next_index + 1, btn_flag := s.inited && fallA s,
      pwm_thr := memRead s.mem s.next_index, pwm_chan := s.dir, pwm_run := true }) ∧
  (∀ s : State, ctlOp s = .svcDuty ↔ s.inited = true ∧ s.dir_flag = false ∧ s.btn_flag = true) ∧
  (∀ s : State, s.mem = [] → s.next_index = 3 → ∃ t, exec .svcDuty s = .next t ∧
    t.pwm_thr = 223 ∧ t.next_index = 0) ∧
  (∀ s : State, s.mem = [] → s.next_index = 0 → ∃ t, exec .svcDuty s = .next t ∧
    pwmA t = false ∧ pwmB t = false ∧ t.dir = s.dir)

/-- 41_controller.md, the state machine as a whole, and 70_reset_and_hazards.md, Hazards: a pending duty step is served in
the cycle it is first seen, or in the next one behind a toggle; then the two configurations applied are the current entry
and the next entry, both on the new direction's channel (the spec marks R119 and R184 as its own inferences). -/
def Obligations.PendingDutyServedWithinTwoCycles : Prop :=
  ∀ (s : State) (w0 w1 : InWord), EdgeInv s → s.inited = true → s.btn_flag = true →
    inRst w0 = false → inRst w1 = false →
    (s.dir_flag = false → .svcDuty ∈ opsOf w0 s) ∧
    (s.dir_flag = true → ∃ t u, cycle w0 s = .next t ∧ cycle w1 t = .next u ∧
      .svcDir ∈ opsOf w0 s ∧ .svcDuty ∈ opsOf w1 t ∧
      t.pwm_thr = memRead s.mem s.last_index ∧ t.pwm_chan = !s.dir ∧
      u.pwm_thr = memRead s.mem s.next_index ∧ u.pwm_chan = !s.dir)

/-- 41_controller.md, the state machine as a whole: over any cycles without reset the cursor has advanced, mod 4, once per
SVC_DUTY, the direction has flipped once per SVC_DIR, and the configuration is the one of the last entry applied. Both
properties of R118 are read off it (the spec marks R118 as its own inference). -/
def Obligations.CursorCountsServices : Prop :=
  ∀ (ws : List InWord) (s t : State), s.inited = true → RunningInv s → NoReset ws → runWords ws s = .next t →
    t.last_index = s.last_index + BitVec.ofNat 2 ((opsDone ws s).count .svcDuty) ∧
    t.next_index = t.last_index + 1 ∧
    t.dir = (s.dir ^^ decide ((opsDone ws s).count .svcDir % 2 = 1)) ∧
    t.pwm_thr = memRead s.mem t.last_index ∧ t.pwm_chan = t.dir

/-- 10_state.md, Hidden state and invariants: R37 is kept by every step, from every state that has it (the spec marks R37
as its own inference). -/
def Obligations.ConfigInvariantKept : Prop :=
  ∀ s t : State, ConfigInv s → step s = .next t → ConfigInv t

/-- Every state that a run from a reset reaches, with any table, any line levels and any inputs, is legal: the table keeps
its canonical form, R37 holds and the edge invariant holds. -/
def Obligations.ReachableStatesAreLegal : Prop :=
  (∀ s : State, Reachable s → LegalState s) ∧
  (∀ s t : State, Reachable s → step s = .next t → Reachable t)

/-- 10_state.md, The state record: in a cycle without reset a register changes only where one of its writers runs. -/
def Obligations.RegistersChangeOnlyByTheirWriters : Prop :=
  ∀ (s t : State) (w : InWord), inRst w = false → cycle w s = .next t →
    (t.inited ≠ s.inited → .initApply ∈ opsOf w s ∧ t.inited = true) ∧
    (t.next_index ≠ s.next_index → .initApply ∈ opsOf w s ∨ .svcDuty ∈ opsOf w s) ∧
    (t.last_index ≠ s.last_index → .initApply ∈ opsOf w s ∨ .svcDuty ∈ opsOf w s) ∧
    (t.dir ≠ s.dir → .svcDir ∈ opsOf w s) ∧
    (t.btn_flag = true → s.btn_flag = false → .setBtn ∈ opsOf w s) ∧
    (t.btn_flag = false → s.btn_flag = true → .svcDuty ∈ opsOf w s ∨ .initApply ∈ opsOf w s) ∧
    (t.dir_flag = true → s.dir_flag = false → .setDir ∈ opsOf w s) ∧
    (t.dir_flag = false → s.dir_flag = true → .svcDir ∈ opsOf w s ∨ .initApply ∈ opsOf w s) ∧
    (t.pwm_thr ≠ s.pwm_thr ∨ t.pwm_chan ≠ s.pwm_chan ∨ t.pwm_run ≠ s.pwm_run →
      .pwmApply t.pwm_thr t.pwm_chan ∈ opsOf w s ∧ t.pwm_run = true) ∧
    (t.pwm_cnt ≠ s.pwm_cnt → .pwmTick ∈ opsOf w s) ∧
    t.mem = s.mem

/-! ### PWM driver and outputs -/

/-- R131, whole: the meaning and frame (the counter holds); its encoding; an apply of the values already held changes
nothing. -/
def Obligations.PwmApplyEffect : Prop :=
  (∀ (thr : Byte) (d : Bit) (s : State), exec (.pwmApply thr d) s = .next
    { s with pwm_thr := thr, pwm_chan := d, pwm_run := true }) ∧
  (∀ (w : PwWord) (thr : Byte) (d : Bit), decodePw w thr d = .pwmApply thr d ↔ w[1] = true) ∧
  (∀ s : State, s.pwm_run = true → exec (.pwmApply s.pwm_thr s.pwm_chan) s = .next s) ∧
  (∀ (s t : State) (w : InWord) (thr : Byte) (d : Bit), inRst w = false → .pwmApply thr d ∈ opsOf w s →
    cycle w s = .next t → t.pwm_thr = thr ∧ t.pwm_chan = d ∧ t.pwm_run = true ∧ t.pwm_cnt = s.pwm_cnt)

/-- R132, whole: the meaning and frame; its encoding; 254 and the unreachable 255 go to 0. -/
def Obligations.PwmTickEffect : Prop :=
  (∀ s : State, exec .pwmTick s = .next
    { s with pwm_cnt := if s.pwm_cnt.toNat ≥ 254 then 0 else s.pwm_cnt + 1 }) ∧
  (∀ (w : PwWord) (thr : Byte) (d : Bit), decodePw w thr d = .pwmTick ↔ w = 0b01) ∧
  (∀ s : State, s.pwm_cnt = 254 ∨ s.pwm_cnt = 255 → exec .pwmTick s = .next { s with pwm_cnt := 0 })

/-- 42_pwm_driver.md, section PWM_HOLD: no write; its encoding; and no cycle of a run from reset selects it (the spec marks
that last sentence of R133 as its own inference). -/
def Obligations.PwmHoldEffect : Prop :=
  (∀ s : State, exec .pwmHold s = .next s) ∧
  (∀ (w : PwWord) (thr : Byte) (d : Bit), decodePw w thr d = .pwmHold ↔ w = 0b00) ∧
  (∀ s : State, Reachable s → pwmOp s ≠ .pwmHold)

/-- 42_pwm_driver.md, Who may apply: a second apply with the same operands changes nothing, and an apply leaves the counter
where it was (the spec marks R135 as its own inference). -/
def Obligations.ApplyIsIdempotent : Prop :=
  ∀ (thr : Byte) (d : Bit) (s : State), ∃ t,
    exec (.pwmApply thr d) s = .next t ∧ exec (.pwmApply thr d) t = .next t ∧ t.pwm_cnt = s.pwm_cnt

/-- R140, whole: both output equations. -/
def Obligations.OutputEquations : Prop :=
  ∀ s : State,
    (pwmA s = true ↔ s.pwm_run = true ∧ s.pwm_chan = false ∧ s.pwm_cnt.toNat < s.pwm_thr.toNat) ∧
    (pwmB s = true ↔ s.pwm_run = true ∧ s.pwm_chan = true ∧ s.pwm_cnt.toNat < s.pwm_thr.toNat)

/-- R141, whole: forward drives channel A and backward channel B in every state a run from reset reaches, the other channel
is low, and both are low while `pwm_run = 0`, which is so until the cycle after INIT_APPLY. -/
def Obligations.InactiveAndStoppedOutputsLow : Prop :=
  (∀ s : State, Reachable s → (pwmA s = true → s.dir = false) ∧ (pwmB s = true → s.dir = true)) ∧
  (∀ s : State, inactiveOut s = false) ∧
  (∀ s : State, s.pwm_run = false → pwmA s = false ∧ pwmB s = false) ∧
  (∀ s : State, Reachable s → (s.pwm_run = false ↔ s.inited = false))

/-- 42_pwm_driver.md, Outputs: the two lines are never both high (the spec marks R146 as its own inference). -/
def Obligations.OutputsNeverBothHigh : Prop :=
  ∀ s : State, ¬(pwmA s = true ∧ pwmB s = true)

/-- 42_pwm_driver.md, Outputs: threshold 0 is constant low and threshold 255 constant high, over any cycles in which the
configuration stands (the spec marks R142 as its own inference). -/
def Obligations.BoundaryThresholdsAreConstant : Prop :=
  ∀ (ws : List InWord) (s u : State), s.pwm_run = true → s.pwm_cnt.toNat < 255 → NoReset ws →
    (∀ i ∈ opsDone ws s, i.isPwmApply = false) → u ∈ statesOf ws s →
    (s.pwm_thr = 0 → activeOut u = false) ∧ (s.pwm_thr = 255 → activeOut u = true)

/-- 42_pwm_driver.md, Outputs: in 255 consecutive cycles of PWM_TICK the active output is high in exactly `pwm_thr` cycles
and the inactive one in none (the spec marks R143 as its own inference). -/
def Obligations.DutyWindowHasThresholdHighCycles : Prop :=
  ∀ (ws : List InWord) (s : State), s.pwm_run = true → s.pwm_cnt.toNat < 255 → NoReset ws → ws.length = 255 →
    (opsDone ws s).count .pwmTick = 255 →
    (∀ c : Nat, c < 255 → (statesOf ws s).countP (fun u => u.pwm_cnt.toNat == c) = 1) ∧
    (statesOf ws s).countP activeOut = s.pwm_thr.toNat ∧
    (statesOf ws s).countP inactiveOut = 0

/-- 42_pwm_driver.md, Outputs: with a threshold strictly between 0 and 255, in a cycle of PWM_TICK the active output rises
exactly on the wrap to 0 and falls exactly on reaching the threshold (the spec marks R144 as its own inference). -/
def Obligations.WaveformEdges : Prop :=
  ∀ (s t : State) (w : InWord), inRst w = false → .pwmTick ∈ opsOf w s → cycle w s = .next t →
    s.pwm_cnt.toNat < 255 → 0 < s.pwm_thr.toNat → s.pwm_thr.toNat < 255 →
    (activeOut s = false ∧ activeOut t = true ↔ t.pwm_cnt = 0) ∧
    (activeOut s = true ∧ activeOut t = false ↔ t.pwm_cnt = s.pwm_thr)

/-- 42_pwm_driver.md, PWM_TICK, and 70_reset_and_hazards.md, Hazards: over any cycles without reset the counter has
advanced, mod 255, once per PWM_TICK, so each apply in a period makes it one cycle longer (the spec marks R181 as its own
inference). -/
def Obligations.CounterCountsTicks : Prop :=
  ∀ (ws : List InWord) (s t : State), s.pwm_cnt.toNat < 255 → NoReset ws → runWords ws s = .next t →
    t.pwm_cnt.toNat = (s.pwm_cnt.toNat + (opsDone ws s).count .pwmTick) % 255 ∧
    (s.pwm_run = true →
      (opsDone ws s).count .pwmTick + (opsDone ws s).countP Instr.isPwmApply = ws.length)

/-! ### The duty table -/

/-- R9, whole: the conversion is `floor(frac × 255 + 1/2)` on exact fractions, a fraction in [0, 1] gives an 8-bit value,
and the default table is 0, 64, 159, 223. -/
def Obligations.ThresholdIsRoundedFraction : Prop :=
  (∀ f : Frac, 0 < f.den → (roundHalfUp f : ℤ) = ⌊(f.num : ℚ) / f.den * 255 + 1 / 2⌋) ∧
  (∀ f : Frac, f.wellFormed = true → (threshOf f).toNat = roundHalfUp f) ∧
  (∀ i : Index, (defaultThresh i).toNat = roundHalfUp (Config.dutyFrac i) ∧ memRead [] i = defaultThresh i) ∧
  memRead [] 0 = 0 ∧ memRead [] 1 = 64 ∧ memRead [] 2 = 159 ∧ memRead [] 3 = 223

/-- 20_memory.md, Address spaces: no operation and no step changes the table, and every entry reads as before. -/
def Obligations.TableNeverChanges : Prop :=
  (∀ (i : Instr) (s t : State), exec i s = .next t →
    t.mem = s.mem ∧ ∀ k : Index, memRead t.mem k = memRead s.mem k) ∧
  (∀ s t : State, step s = .next t →
    t.mem = s.mem ∧ (Memory.wf s.mem = true → Memory.wf t.mem = true) ∧
      ∀ k : Index, memRead t.mem k = memRead s.mem k)

/-- 00_scope.md, Implementation parameters: a table given as the argument reads back entry by entry, and canonical images
that read alike are the same data (how the table is held is the model's choice, notes/assumptions/5.md). -/
def Obligations.TableArgumentReadsBack : Prop :=
  (∀ t0 t1 t2 t3 : Byte,
    memRead (Memory.ofTable t0 t1 t2 t3) 0 = t0 ∧ memRead (Memory.ofTable t0 t1 t2 t3) 1 = t1 ∧
    memRead (Memory.ofTable t0 t1 t2 t3) 2 = t2 ∧ memRead (Memory.ofTable t0 t1 t2 t3) 3 = t3) ∧
  (∀ m m' : Memory, Memory.wf m = true → Memory.wf m' = true → (∀ i : Index, memRead m i = memRead m' i) → m = m')

/-! ### Timing and levels -/

/-- 70_reset_and_hazards.md, Hazards: from a press first sampled in cycle t to the new configuration, by cycle: the edge in
t + 2, the flag at t + 3, the service in t + 3 (line B), and in t + 3 or t + 4 (line A), and in the cycle after the service
the whole configuration: threshold, channel and run. `w0` is cycle t - 1, which may be a reset cycle (the spec marks R182
as its own inference). -/
def Obligations.PressToServiceLatency : Prop :=
  ∀ (s : State) (w0 w1 w2 w3 w4 w5 : InWord), NoReset [w1, w2, w3, w4, w5] →
    ∃ s2 s3 s4 s5,
      runWords [w0, w1, w2] s = .next s2 ∧ runWords [w0, w1, w2, w3] s = .next s3 ∧
      runWords [w0, w1, w2, w3, w4] s = .next s4 ∧ runWords [w0, w1, w2, w3, w4, w5] s = .next s5 ∧
      (inBtnB w0 = true → inBtnB w1 = false →
        fallB s2 = true ∧ s3.dir_flag = true ∧ .svcDir ∈ opsOf w4 s3 ∧
        s4.pwm_thr = memRead s.mem s3.last_index ∧ s4.pwm_chan = !s3.dir ∧ s4.pwm_run = true) ∧
      (inBtnA w0 = true → inBtnA w1 = false →
        fallA s2 = true ∧ s3.btn_flag = true ∧
        (s3.dir_flag = false → .svcDuty ∈ opsOf w4 s3 ∧
          s4.pwm_thr = memRead s.mem s3.next_index ∧ s4.pwm_chan = s3.dir ∧ s4.pwm_run = true) ∧
        (s3.dir_flag = true → .svcDuty ∈ opsOf w5 s4 ∧
          s5.pwm_thr = memRead s.mem s3.next_index ∧ s5.pwm_chan = !s3.dir ∧ s5.pwm_run = true))

/-- 70_reset_and_hazards.md, Hazards: no edge is detected in the two cycles after a reset cycle, and a line held low through
reset gives none for as long as it stays low (the spec's decision D12). -/
def Obligations.HeldThroughResetIsNoPress : Prop :=
  (∀ (s : State) (w0 w1 : InWord), inRst w0 = true → inRst w1 = false →
    ∃ t u, runWords [w0] s = .next t ∧ runWords [w0, w1] s = .next u ∧
      fallA t = false ∧ fallB t = false ∧ fallA u = false ∧ fallB u = false) ∧
  (∀ (w0 : InWord) (ws : List InWord) (s r u : State), inRst w0 = true → cycle w0 s = .next r → u ∈ statesOf ws r →
    (inBtnA w0 = false → (∀ w ∈ ws, inBtnA w = false) → fallA u = false) ∧
    (inBtnB w0 = false → (∀ w ∈ ws, inBtnB w = false) → fallB u = false))

/-- 70_reset_and_hazards.md, The whole-cycle step: seen at the transaction level, a cycle without reset is its Service and
then the edges it detects (none while `inited = 0`), in either order; so every run of cycles without reset is a run of
moves (the spec marks R172 as its own inference). -/
def Obligations.CyclesRefineTransactions : Prop :=
  (∀ (w : InWord) (s t : State), inRst w = false → cycle w s = .next t →
    (s.inited = false → txOf t = txRun [.service] (txOf s)) ∧
    (s.inited = true →
      txOf t = txRun ([.service] ++ (if fallA s then [.edgeA] else []) ++ (if fallB s then [.edgeB] else [])) (txOf s) ∧
      txOf t = txRun ([.service] ++ (if fallB s then [.edgeB] else []) ++ (if fallA s then [.edgeA] else [])) (txOf s))) ∧
  (∀ (ws : List InWord) (s t : State), NoReset ws → runWords ws s = .next t →
    ∃ ms : List Move, ms.count .service = ws.length ∧ txOf t = txRun ms (txOf s))

/-- 30_encoding.md, Notation for operations and stimulus programs: the words and the digit of each directive of R76's table,
the expansions of R77, at least one cycle for a well-formed directive, and a program's text: its words' digits in cycle
order, one per cycle, which reads back as the words, with or without a comment behind it. -/
def Obligations.StimulusTextReadsBack : Prop :=
  (∀ k : Nat,
    directiveWords (.rst k) = List.replicate k 0b111 ∧ programText [.rst k] = List.replicate k '7' ∧
    directiveWords (.idle k) = List.replicate k 0b011 ∧ programText [.idle k] = List.replicate k '3' ∧
    directiveWords (.holdA k) = List.replicate k 0b010 ∧ programText [.holdA k] = List.replicate k '2' ∧
    directiveWords (.holdB k) = List.replicate k 0b001 ∧ programText [.holdB k] = List.replicate k '1' ∧
    directiveWords (.holdAB k) = List.replicate k 0b000 ∧ programText [.holdAB k] = List.replicate k '0' ∧
    (∀ d : Nat, d < 8 → directiveWords (.raw k d) = List.replicate k (BitVec.ofNat 3 d) ∧
      programText [.raw k d] = List.replicate k (Nat.digitChar d)) ∧
    directiveWords (.wait k) = directiveWords (.idle k)) ∧
  directiveWords .por = directiveWords (.rst 1) ∧
  directiveWords .pressA = directiveWords (.holdA 4) ++ directiveWords (.idle 4) ∧
  directiveWords .pressB = directiveWords (.holdB 4) ++ directiveWords (.idle 4) ∧
  directiveWords .pressAB = directiveWords (.holdAB 4) ++ directiveWords (.idle 4) ∧
  (∀ d : Directive, d.wellFormed = true → directiveWords d ≠ []) ∧
  programWords [] = [] ∧
  (∀ (d : Directive) (p : List Directive), programWords (d :: p) = directiveWords d ++ programWords p) ∧
  (∀ p : List Directive, readDigits (programText p) = .ok (programWords p) ∧
    (programText p).length = (programWords p).length ∧
    (∀ comment : List Char, '\n' ∉ comment →
      readDigits (programText p ++ ';' :: comment) = .ok (programWords p)))
end

