-- ==== Sys2Proof/Laws/State.lean ====
section
/-! SUPPORT. One lemma per field per named update of State, each true by unfolding the update once, so that no proof has
to unfold a record update again. -/

namespace Sys2Proof.Machine

/-! ### `loadReset`: RESET's register load (R173) -/

@[simp] theorem loadReset_inited (b a : Bit) (s : State) : (loadReset b a s).inited = false := rfl
@[simp] theorem loadReset_next_index (b a : Bit) (s : State) : (loadReset b a s).next_index = 0 := rfl
@[simp] theorem loadReset_last_index (b a : Bit) (s : State) : (loadReset b a s).last_index = 0 := rfl
@[simp] theorem loadReset_dir (b a : Bit) (s : State) : (loadReset b a s).dir = false := rfl
@[simp] theorem loadReset_btn_flag (b a : Bit) (s : State) : (loadReset b a s).btn_flag = false := rfl
@[simp] theorem loadReset_dir_flag (b a : Bit) (s : State) : (loadReset b a s).dir_flag = false := rfl
@[simp] theorem loadReset_pwm_thr (b a : Bit) (s : State) : (loadReset b a s).pwm_thr = 0 := rfl
@[simp] theorem loadReset_pwm_chan (b a : Bit) (s : State) : (loadReset b a s).pwm_chan = false := rfl
@[simp] theorem loadReset_pwm_run (b a : Bit) (s : State) : (loadReset b a s).pwm_run = false := rfl
@[simp] theorem loadReset_pwm_cnt (b a : Bit) (s : State) : (loadReset b a s).pwm_cnt = 0 := rfl
@[simp] theorem loadReset_a_m (b a : Bit) (s : State) : (loadReset b a s).a_m = a := rfl
@[simp] theorem loadReset_a_s (b a : Bit) (s : State) : (loadReset b a s).a_s = a := rfl
@[simp] theorem loadReset_a_p (b a : Bit) (s : State) : (loadReset b a s).a_p = a := rfl
@[simp] theorem loadReset_b_m (b a : Bit) (s : State) : (loadReset b a s).b_m = b := rfl
@[simp] theorem loadReset_b_s (b a : Bit) (s : State) : (loadReset b a s).b_s = b := rfl
@[simp] theorem loadReset_b_p (b a : Bit) (s : State) : (loadReset b a s).b_p = b := rfl
@[simp] theorem loadReset_mem (b a : Bit) (s : State) : (loadReset b a s).mem = s.mem := rfl
@[simp] theorem loadReset_pins_ahead (b a : Bit) (s : State) : (loadReset b a s).pins_ahead = s.pins_ahead := rfl
@[simp] theorem loadReset_draws (b a : Bit) (s : State) : (loadReset b a s).draws = s.draws := rfl

/-! ### `shiftSync`: the synchronizer shift (R91) -/

@[simp] theorem shiftSync_inited (b a : Bit) (s : State) : (shiftSync b a s).inited = s.inited := rfl
@[simp] theorem shiftSync_next_index (b a : Bit) (s : State) : (shiftSync b a s).next_index = s.next_index := rfl
@[simp] theorem shiftSync_last_index (b a : Bit) (s : State) : (shiftSync b a s).last_index = s.last_index := rfl
@[simp] theorem shiftSync_dir (b a : Bit) (s : State) : (shiftSync b a s).dir = s.dir := rfl
@[simp] theorem shiftSync_btn_flag (b a : Bit) (s : State) : (shiftSync b a s).btn_flag = s.btn_flag := rfl
@[simp] theorem shiftSync_dir_flag (b a : Bit) (s : State) : (shiftSync b a s).dir_flag = s.dir_flag := rfl
@[simp] theorem shiftSync_pwm_thr (b a : Bit) (s : State) : (shiftSync b a s).pwm_thr = s.pwm_thr := rfl
@[simp] theorem shiftSync_pwm_chan (b a : Bit) (s : State) : (shiftSync b a s).pwm_chan = s.pwm_chan := rfl
@[simp] theorem shiftSync_pwm_run (b a : Bit) (s : State) : (shiftSync b a s).pwm_run = s.pwm_run := rfl
@[simp] theorem shiftSync_pwm_cnt (b a : Bit) (s : State) : (shiftSync b a s).pwm_cnt = s.pwm_cnt := rfl
@[simp] theorem shiftSync_a_m (b a : Bit) (s : State) : (shiftSync b a s).a_m = a := rfl
@[simp] theorem shiftSync_a_s (b a : Bit) (s : State) : (shiftSync b a s).a_s = s.a_m := rfl
@[simp] theorem shiftSync_a_p (b a : Bit) (s : State) : (shiftSync b a s).a_p = s.a_s := rfl
@[simp] theorem shiftSync_b_m (b a : Bit) (s : State) : (shiftSync b a s).b_m = b := rfl
@[simp] theorem shiftSync_b_s (b a : Bit) (s : State) : (shiftSync b a s).b_s = s.b_m := rfl
@[simp] theorem shiftSync_b_p (b a : Bit) (s : State) : (shiftSync b a s).b_p = s.b_s := rfl
@[simp] theorem shiftSync_mem (b a : Bit) (s : State) : (shiftSync b a s).mem = s.mem := rfl
@[simp] theorem shiftSync_pins_ahead (b a : Bit) (s : State) : (shiftSync b a s).pins_ahead = s.pins_ahead := rfl
@[simp] theorem shiftSync_draws (b a : Bit) (s : State) : (shiftSync b a s).draws = s.draws := rfl

/-! ### `advanceCursor`: the cursor's advance (R111, R114) -/

@[simp] theorem advanceCursor_inited (s : State) : (advanceCursor s).inited = s.inited := rfl
@[simp] theorem advanceCursor_next_index (s : State) : (advanceCursor s).next_index = s.next_index + 1 := rfl
@[simp] theorem advanceCursor_last_index (s : State) : (advanceCursor s).last_index = s.next_index := rfl
@[simp] theorem advanceCursor_dir (s : State) : (advanceCursor s).dir = s.dir := rfl
@[simp] theorem advanceCursor_btn_flag (s : State) : (advanceCursor s).btn_flag = s.btn_flag := rfl
@[simp] theorem advanceCursor_dir_flag (s : State) : (advanceCursor s).dir_flag = s.dir_flag := rfl
@[simp] theorem advanceCursor_pwm_thr (s : State) : (advanceCursor s).pwm_thr = s.pwm_thr := rfl
@[simp] theorem advanceCursor_pwm_chan (s : State) : (advanceCursor s).pwm_chan = s.pwm_chan := rfl
@[simp] theorem advanceCursor_pwm_run (s : State) : (advanceCursor s).pwm_run = s.pwm_run := rfl
@[simp] theorem advanceCursor_pwm_cnt (s : State) : (advanceCursor s).pwm_cnt = s.pwm_cnt := rfl
@[simp] theorem advanceCursor_a_m (s : State) : (advanceCursor s).a_m = s.a_m := rfl
@[simp] theorem advanceCursor_a_s (s : State) : (advanceCursor s).a_s = s.a_s := rfl
@[simp] theorem advanceCursor_a_p (s : State) : (advanceCursor s).a_p = s.a_p := rfl
@[simp] theorem advanceCursor_b_m (s : State) : (advanceCursor s).b_m = s.b_m := rfl
@[simp] theorem advanceCursor_b_s (s : State) : (advanceCursor s).b_s = s.b_s := rfl
@[simp] theorem advanceCursor_b_p (s : State) : (advanceCursor s).b_p = s.b_p := rfl
@[simp] theorem advanceCursor_mem (s : State) : (advanceCursor s).mem = s.mem := rfl
@[simp] theorem advanceCursor_pins_ahead (s : State) : (advanceCursor s).pins_ahead = s.pins_ahead := rfl
@[simp] theorem advanceCursor_draws (s : State) : (advanceCursor s).draws = s.draws := rfl

/-! ### `loadPwm`: PWM_APPLY's load (R131) -/

@[simp] theorem loadPwm_inited (thr : Byte) (d : Bit) (s : State) : (loadPwm thr d s).inited = s.inited := rfl
@[simp] theorem loadPwm_next_index (thr : Byte) (d : Bit) (s : State) : (loadPwm thr d s).next_index = s.next_index := rfl
@[simp] theorem loadPwm_last_index (thr : Byte) (d : Bit) (s : State) : (loadPwm thr d s).last_index = s.last_index := rfl
@[simp] theorem loadPwm_dir (thr : Byte) (d : Bit) (s : State) : (loadPwm thr d s).dir = s.dir := rfl
@[simp] theorem loadPwm_btn_flag (thr : Byte) (d : Bit) (s : State) : (loadPwm thr d s).btn_flag = s.btn_flag := rfl
@[simp] theorem loadPwm_dir_flag (thr : Byte) (d : Bit) (s : State) : (loadPwm thr d s).dir_flag = s.dir_flag := rfl
@[simp] theorem loadPwm_pwm_thr (thr : Byte) (d : Bit) (s : State) : (loadPwm thr d s).pwm_thr = thr := rfl
@[simp] theorem loadPwm_pwm_chan (thr : Byte) (d : Bit) (s : State) : (loadPwm thr d s).pwm_chan = d := rfl
@[simp] theorem loadPwm_pwm_run (thr : Byte) (d : Bit) (s : State) : (loadPwm thr d s).pwm_run = true := rfl
@[simp] theorem loadPwm_pwm_cnt (thr : Byte) (d : Bit) (s : State) : (loadPwm thr d s).pwm_cnt = s.pwm_cnt := rfl
@[simp] theorem loadPwm_a_m (thr : Byte) (d : Bit) (s : State) : (loadPwm thr d s).a_m = s.a_m := rfl
@[simp] theorem loadPwm_a_s (thr : Byte) (d : Bit) (s : State) : (loadPwm thr d s).a_s = s.a_s := rfl
@[simp] theorem loadPwm_a_p (thr : Byte) (d : Bit) (s : State) : (loadPwm thr d s).a_p = s.a_p := rfl
@[simp] theorem loadPwm_b_m (thr : Byte) (d : Bit) (s : State) : (loadPwm thr d s).b_m = s.b_m := rfl
@[simp] theorem loadPwm_b_s (thr : Byte) (d : Bit) (s : State) : (loadPwm thr d s).b_s = s.b_s := rfl
@[simp] theorem loadPwm_b_p (thr : Byte) (d : Bit) (s : State) : (loadPwm thr d s).b_p = s.b_p := rfl
@[simp] theorem loadPwm_mem (thr : Byte) (d : Bit) (s : State) : (loadPwm thr d s).mem = s.mem := rfl
@[simp] theorem loadPwm_pins_ahead (thr : Byte) (d : Bit) (s : State) : (loadPwm thr d s).pins_ahead = s.pins_ahead := rfl
@[simp] theorem loadPwm_draws (thr : Byte) (d : Bit) (s : State) : (loadPwm thr d s).draws = s.draws := rfl

/-! ### `tickCounter`: the counter's advance (R132) -/

@[simp] theorem tickCounter_inited (s : State) : (tickCounter s).inited = s.inited := rfl
@[simp] theorem tickCounter_next_index (s : State) : (tickCounter s).next_index = s.next_index := rfl
@[simp] theorem tickCounter_last_index (s : State) : (tickCounter s).last_index = s.last_index := rfl
@[simp] theorem tickCounter_dir (s : State) : (tickCounter s).dir = s.dir := rfl
@[simp] theorem tickCounter_btn_flag (s : State) : (tickCounter s).btn_flag = s.btn_flag := rfl
@[simp] theorem tickCounter_dir_flag (s : State) : (tickCounter s).dir_flag = s.dir_flag := rfl
@[simp] theorem tickCounter_pwm_thr (s : State) : (tickCounter s).pwm_thr = s.pwm_thr := rfl
@[simp] theorem tickCounter_pwm_chan (s : State) : (tickCounter s).pwm_chan = s.pwm_chan := rfl
@[simp] theorem tickCounter_pwm_run (s : State) : (tickCounter s).pwm_run = s.pwm_run := rfl
@[simp] theorem tickCounter_pwm_cnt (s : State) : (tickCounter s).pwm_cnt = nextCount s.pwm_cnt := rfl
@[simp] theorem tickCounter_a_m (s : State) : (tickCounter s).a_m = s.a_m := rfl
@[simp] theorem tickCounter_a_s (s : State) : (tickCounter s).a_s = s.a_s := rfl
@[simp] theorem tickCounter_a_p (s : State) : (tickCounter s).a_p = s.a_p := rfl
@[simp] theorem tickCounter_b_m (s : State) : (tickCounter s).b_m = s.b_m := rfl
@[simp] theorem tickCounter_b_s (s : State) : (tickCounter s).b_s = s.b_s := rfl
@[simp] theorem tickCounter_b_p (s : State) : (tickCounter s).b_p = s.b_p := rfl
@[simp] theorem tickCounter_mem (s : State) : (tickCounter s).mem = s.mem := rfl
@[simp] theorem tickCounter_pins_ahead (s : State) : (tickCounter s).pins_ahead = s.pins_ahead := rfl
@[simp] theorem tickCounter_draws (s : State) : (tickCounter s).draws = s.draws := rfl

/-! ### `setBtnFlag`: SET_BTN's set (R93) -/

@[simp] theorem setBtnFlag_inited (s : State) : (setBtnFlag s).inited = s.inited := rfl
@[simp] theorem setBtnFlag_next_index (s : State) : (setBtnFlag s).next_index = s.next_index := rfl
@[simp] theorem setBtnFlag_last_index (s : State) : (setBtnFlag s).last_index = s.last_index := rfl
@[simp] theorem setBtnFlag_dir (s : State) : (setBtnFlag s).dir = s.dir := rfl
@[simp] theorem setBtnFlag_btn_flag (s : State) : (setBtnFlag s).btn_flag = flagNext s.inited false s.btn_flag := rfl
@[simp] theorem setBtnFlag_dir_flag (s : State) : (setBtnFlag s).dir_flag = s.dir_flag := rfl
@[simp] theorem setBtnFlag_pwm_thr (s : State) : (setBtnFlag s).pwm_thr = s.pwm_thr := rfl
@[simp] theorem setBtnFlag_pwm_chan (s : State) : (setBtnFlag s).pwm_chan = s.pwm_chan := rfl
@[simp] theorem setBtnFlag_pwm_run (s : State) : (setBtnFlag s).pwm_run = s.pwm_run := rfl
@[simp] theorem setBtnFlag_pwm_cnt (s : State) : (setBtnFlag s).pwm_cnt = s.pwm_cnt := rfl
@[simp] theorem setBtnFlag_a_m (s : State) : (setBtnFlag s).a_m = s.a_m := rfl
@[simp] theorem setBtnFlag_a_s (s : State) : (setBtnFlag s).a_s = s.a_s := rfl
@[simp] theorem setBtnFlag_a_p (s : State) : (setBtnFlag s).a_p = s.a_p := rfl
@[simp] theorem setBtnFlag_b_m (s : State) : (setBtnFlag s).b_m = s.b_m := rfl
@[simp] theorem setBtnFlag_b_s (s : State) : (setBtnFlag s).b_s = s.b_s := rfl
@[simp] theorem setBtnFlag_b_p (s : State) : (setBtnFlag s).b_p = s.b_p := rfl
@[simp] theorem setBtnFlag_mem (s : State) : (setBtnFlag s).mem = s.mem := rfl
@[simp] theorem setBtnFlag_pins_ahead (s : State) : (setBtnFlag s).pins_ahead = s.pins_ahead := rfl
@[simp] theorem setBtnFlag_draws (s : State) : (setBtnFlag s).draws = s.draws := rfl

/-! ### `setDirFlag`: SET_DIR's set (R94) -/

@[simp] theorem setDirFlag_inited (s : State) : (setDirFlag s).inited = s.inited := rfl
@[simp] theorem setDirFlag_next_index (s : State) : (setDirFlag s).next_index = s.next_index := rfl
@[simp] theorem setDirFlag_last_index (s : State) : (setDirFlag s).last_index = s.last_index := rfl
@[simp] theorem setDirFlag_dir (s : State) : (setDirFlag s).dir = s.dir := rfl
@[simp] theorem setDirFlag_btn_flag (s : State) : (setDirFlag s).btn_flag = s.btn_flag := rfl
@[simp] theorem setDirFlag_dir_flag (s : State) : (setDirFlag s).dir_flag = flagNext s.inited false s.dir_flag := rfl
@[simp] theorem setDirFlag_pwm_thr (s : State) : (setDirFlag s).pwm_thr = s.pwm_thr := rfl
@[simp] theorem setDirFlag_pwm_chan (s : State) : (setDirFlag s).pwm_chan = s.pwm_chan := rfl
@[simp] theorem setDirFlag_pwm_run (s : State) : (setDirFlag s).pwm_run = s.pwm_run := rfl
@[simp] theorem setDirFlag_pwm_cnt (s : State) : (setDirFlag s).pwm_cnt = s.pwm_cnt := rfl
@[simp] theorem setDirFlag_a_m (s : State) : (setDirFlag s).a_m = s.a_m := rfl
@[simp] theorem setDirFlag_a_s (s : State) : (setDirFlag s).a_s = s.a_s := rfl
@[simp] theorem setDirFlag_a_p (s : State) : (setDirFlag s).a_p = s.a_p := rfl
@[simp] theorem setDirFlag_b_m (s : State) : (setDirFlag s).b_m = s.b_m := rfl
@[simp] theorem setDirFlag_b_s (s : State) : (setDirFlag s).b_s = s.b_s := rfl
@[simp] theorem setDirFlag_b_p (s : State) : (setDirFlag s).b_p = s.b_p := rfl
@[simp] theorem setDirFlag_mem (s : State) : (setDirFlag s).mem = s.mem := rfl
@[simp] theorem setDirFlag_pins_ahead (s : State) : (setDirFlag s).pins_ahead = s.pins_ahead := rfl
@[simp] theorem setDirFlag_draws (s : State) : (setDirFlag s).draws = s.draws := rfl

/-! ### `clearBtnFlag`: `clr_btn` (R95) -/

@[simp] theorem clearBtnFlag_inited (s : State) : (clearBtnFlag s).inited = s.inited := rfl
@[simp] theorem clearBtnFlag_next_index (s : State) : (clearBtnFlag s).next_index = s.next_index := rfl
@[simp] theorem clearBtnFlag_last_index (s : State) : (clearBtnFlag s).last_index = s.last_index := rfl
@[simp] theorem clearBtnFlag_dir (s : State) : (clearBtnFlag s).dir = s.dir := rfl
@[simp] theorem clearBtnFlag_btn_flag (s : State) : (clearBtnFlag s).btn_flag = flagNext (s.inited && fallA s) true s.btn_flag := rfl
@[simp] theorem clearBtnFlag_dir_flag (s : State) : (clearBtnFlag s).dir_flag = s.dir_flag := rfl
@[simp] theorem clearBtnFlag_pwm_thr (s : State) : (clearBtnFlag s).pwm_thr = s.pwm_thr := rfl
@[simp] theorem clearBtnFlag_pwm_chan (s : State) : (clearBtnFlag s).pwm_chan = s.pwm_chan := rfl
@[simp] theorem clearBtnFlag_pwm_run (s : State) : (clearBtnFlag s).pwm_run = s.pwm_run := rfl
@[simp] theorem clearBtnFlag_pwm_cnt (s : State) : (clearBtnFlag s).pwm_cnt = s.pwm_cnt := rfl
@[simp] theorem clearBtnFlag_a_m (s : State) : (clearBtnFlag s).a_m = s.a_m := rfl
@[simp] theorem clearBtnFlag_a_s (s : State) : (clearBtnFlag s).a_s = s.a_s := rfl
@[simp] theorem clearBtnFlag_a_p (s : State) : (clearBtnFlag s).a_p = s.a_p := rfl
@[simp] theorem clearBtnFlag_b_m (s : State) : (clearBtnFlag s).b_m = s.b_m := rfl
@[simp] theorem clearBtnFlag_b_s (s : State) : (clearBtnFlag s).b_s = s.b_s := rfl
@[simp] theorem clearBtnFlag_b_p (s : State) : (clearBtnFlag s).b_p = s.b_p := rfl
@[simp] theorem clearBtnFlag_mem (s : State) : (clearBtnFlag s).mem = s.mem := rfl
@[simp] theorem clearBtnFlag_pins_ahead (s : State) : (clearBtnFlag s).pins_ahead = s.pins_ahead := rfl
@[simp] theorem clearBtnFlag_draws (s : State) : (clearBtnFlag s).draws = s.draws := rfl

/-! ### `clearDirFlag`: `clr_dir` (R95) -/

@[simp] theorem clearDirFlag_inited (s : State) : (clearDirFlag s).inited = s.inited := rfl
@[simp] theorem clearDirFlag_next_index (s : State) : (clearDirFlag s).next_index = s.next_index := rfl
@[simp] theorem clearDirFlag_last_index (s : State) : (clearDirFlag s).last_index = s.last_index := rfl
@[simp] theorem clearDirFlag_dir (s : State) : (clearDirFlag s).dir = s.dir := rfl
@[simp] theorem clearDirFlag_btn_flag (s : State) : (clearDirFlag s).btn_flag = s.btn_flag := rfl
@[simp] theorem clearDirFlag_dir_flag (s : State) : (clearDirFlag s).dir_flag = flagNext (s.inited && fallB s) true s.dir_flag := rfl
@[simp] theorem clearDirFlag_pwm_thr (s : State) : (clearDirFlag s).pwm_thr = s.pwm_thr := rfl
@[simp] theorem clearDirFlag_pwm_chan (s : State) : (clearDirFlag s).pwm_chan = s.pwm_chan := rfl
@[simp] theorem clearDirFlag_pwm_run (s : State) : (clearDirFlag s).pwm_run = s.pwm_run := rfl
@[simp] theorem clearDirFlag_pwm_cnt (s : State) : (clearDirFlag s).pwm_cnt = s.pwm_cnt := rfl
@[simp] theorem clearDirFlag_a_m (s : State) : (clearDirFlag s).a_m = s.a_m := rfl
@[simp] theorem clearDirFlag_a_s (s : State) : (clearDirFlag s).a_s = s.a_s := rfl
@[simp] theorem clearDirFlag_a_p (s : State) : (clearDirFlag s).a_p = s.a_p := rfl
@[simp] theorem clearDirFlag_b_m (s : State) : (clearDirFlag s).b_m = s.b_m := rfl
@[simp] theorem clearDirFlag_b_s (s : State) : (clearDirFlag s).b_s = s.b_s := rfl
@[simp] theorem clearDirFlag_b_p (s : State) : (clearDirFlag s).b_p = s.b_p := rfl
@[simp] theorem clearDirFlag_mem (s : State) : (clearDirFlag s).mem = s.mem := rfl
@[simp] theorem clearDirFlag_pins_ahead (s : State) : (clearDirFlag s).pins_ahead = s.pins_ahead := rfl
@[simp] theorem clearDirFlag_draws (s : State) : (clearDirFlag s).draws = s.draws := rfl

/-! ### The environment's two fields -/

theorem takePin_scripted (s : State) (w : InWord) (ws : List InWord) (h : s.pins_ahead = w :: ws) :
    pinWord s = w ∧ takePin s = { s with pins_ahead := ws } := by
  simp [pinWord, takePin, h]

theorem takePin_drawn (s : State) (h : s.pins_ahead = []) :
    pinWord s = Config.pinSample s.draws ∧ takePin s = { s with draws := s.draws + 1 } := by
  simp [pinWord, takePin, h]

/-- Sampling the pins changes no register and no table entry. -/
theorem takePin_registers (s : State) :
    takePin s = { s with pins_ahead := (takePin s).pins_ahead, draws := (takePin s).draws } := by
  unfold takePin
  split <;> rfl

@[simp] theorem withFetchWord_pinWord (s : State) (nbits w : Nat) :
    pinWord (s.withFetchWord nbits w) = BitVec.ofNat 3 (w % 2 ^ nbits) := rfl

@[simp] theorem withFetchWord_takePin (s : State) (nbits w : Nat) : takePin (s.withFetchWord nbits w) = s := rfl

end Sys2Proof.Machine
end

