-- ==== Sys2Proof/Laws/Words.lean ====
section
/-! SUPPORT. What the decode words hold and what each decoder answers on a word made from its bits: proofs cite these and
never unfold a decoder. -/

namespace Sys2Proof

theorem inRst_mkIn (r b a : Bit) : inRst (mkIn r b a) = r := by revert r b a; decide

theorem inBtnB_mkIn (r b a : Bit) : inBtnB (mkIn r b a) = b := by revert r b a; decide

theorem inBtnA_mkIn (r b a : Bit) : inBtnA (mkIn r b a) = a := by revert r b a; decide

/-- An IN word is its three bits. -/
theorem mkIn_bits (w : InWord) : mkIn (inRst w) (inBtnB w) (inBtnA w) = w := by revert w; decide

theorem decodeEv_mkEv (fall_b fall_a : Bit) :
    decodeEv (mkEv fall_b fall_a) =
      if fall_a then (if fall_b then [.setBtn, .setDir] else [.setBtn])
      else (if fall_b then [.setDir] else [.noEvent]) := by
  revert fall_b fall_a; decide

theorem decodeCw_mkCw (inited dir_flag btn_flag : Bit) :
    decodeCw (mkCw inited dir_flag btn_flag) =
      if inited then (if dir_flag then .svcDir else if btn_flag then .svcDuty else .svcIdle) else .initApply := by
  revert inited dir_flag btn_flag; decide

theorem mkPw_apply (apply run : Bit) : (mkPw apply run)[1] = apply := by revert apply run; decide

theorem mkPw_run (apply run : Bit) : (mkPw apply run)[0] = run := by revert apply run; decide

theorem decodePw_mkPw (apply run : Bit) (thr : Byte) (d : Bit) :
    decodePw (mkPw apply run) thr d =
      if apply then .pwmApply thr d else if run then .pwmTick else .pwmHold := by
  simp only [decodePw, mkPw_apply, mkPw_run]

/-- Where `apply = 0` the PW decode uses neither operand signal (R69). -/
theorem decodePw_no_apply (run : Bit) (thr thr' : Byte) (d d' : Bit) :
    decodePw (mkPw false run) thr d = decodePw (mkPw false run) thr' d' := by
  simp [decodePw_mkPw]

theorem digitWord_wordDigit (w : InWord) : digitWord (wordDigit w) = some w := by revert w; decide

/-- A digit is no separator: reading one word's digit reads that word. -/
theorem readDigits_digit (w : InWord) (cs : List Char) :
    readDigits (wordDigit w :: cs) =
      match readDigits cs with
      | .ok ws => .ok (w :: ws)
      | .error e => .error e := by
  have h : wordDigit w ≠ '\n' ∧ wordDigit w ≠ ';' ∧ wordDigit w ≠ ' ' := by revert w; decide
  cases e : readDigitsFrom false cs <;>
    simp [readDigits, readDigitsFrom, h.1, h.2.1, h.2.2, digitWord_wordDigit, e]

/-- A comment drives nothing up to the end of its line. -/
theorem readDigits_comment (cs : List Char) (h : '\n' ∉ cs) : readDigits (';' :: cs) = .ok [] := by
  have skip : ∀ l : List Char, '\n' ∉ l → readDigitsFrom true l = .ok [] := by
    intro l
    induction l with
    | nil => intro _; rfl
    | cons c l ih =>
      intro hl
      rw [List.mem_cons, not_or] at hl
      simp [readDigitsFrom, Ne.symm hl.1, ih hl.2]
  simp [readDigits, readDigitsFrom, skip cs h]

end Sys2Proof
end

