-- ==== Sys2Proof/Laws/Ops.lean ====
section
/-! SUPPORT. One lemma per shared operation that says once everything it can do, and the canonical form of the duty
table. -/

namespace Sys2Proof.Machine

/-! ### Flags and counter -/

theorem flagNext_eq_true (set clr old : Bit) :
    flagNext set clr old = true ↔ set = true ∨ (old = true ∧ clr = false) := by
  cases set <;> cases clr <;> cases old <;> simp [flagNext]

/-- The counter below `MAX_COUNT` steps by one modulo `MAX_COUNT` (R132). -/
theorem nextCount_toNat (c : Byte) (h : c.toNat < Config.maxCount) :
    (nextCount c).toNat = (c.toNat + 1) % Config.maxCount := by
  simp only [Config.maxCount] at *
  unfold nextCount Config.maxCount
  split
  · simp; omega
  · rw [BitVec.toNat_add]; simp; omega

theorem nextCount_lt (c : Byte) : (nextCount c).toNat < Config.maxCount := by
  unfold nextCount Config.maxCount
  split
  · decide
  · have := c.isLt
    rw [BitVec.toNat_add]; simp; omega

/-! ### Which operations a state selects -/

theorem fallA_shiftSync (b a : Bit) (s : State) : fallA (shiftSync b a s) = (s.a_s && !s.a_m) := rfl

theorem fallB_shiftSync (b a : Bit) (s : State) : fallB (shiftSync b a s) = (s.b_s && !s.b_m) := rfl

theorem applyDrive_eq_some (op : Instr) (s : State) (d : Drive) :
    applyDrive op s = some d ↔ ∃ i, applyIndex op s = some i ∧ d = ⟨memRead s.mem i, applyDir op s⟩ := by
  simp [applyDrive, eq_comm]

/-- The PWM driver operation of a state, by what its controller operation drives. -/
theorem pwmOp_of_drive (s : State) (d : Drive) (h : applyDrive (ctlOp s) s = some d) :
    pwmOp s = .pwmApply d.thr d.dir := by
  simp [pwmOp, h, decodePw_mkPw]

theorem pwmOp_of_no_drive (s : State) (h : applyDrive (ctlOp s) s = none) :
    pwmOp s = if s.pwm_run then .pwmTick else .pwmHold := by
  simp [pwmOp, h, decodePw_mkPw]

/-! ### Composition -/

theorem runOps_cons (i : Instr) (l : List Instr) (s t : State) (h : exec i s = .next t) :
    runOps (i :: l) s = runOps l t := by
  simp [runOps, h]

theorem runOps_append (l l' : List Instr) (s t : State) (h : runOps l s = .next t) :
    runOps (l ++ l') s = runOps l' t := by
  induction l generalizing s with
  | nil => cases h; rfl
  | cons i l ih =>
    rw [List.cons_append]
    cases e : exec i s with
    | next u =>
      rw [runOps_cons i l s u e] at h
      rw [runOps_cons i _ s u e]
      exact ih u h
    | fault r => simp [runOps, e] at h
    | refused r => simp [runOps, e] at h

/-! ### Outputs -/

theorem activeOut_of_run (s : State) (h : s.pwm_run = true) : activeOut s = pwmMatch s := by
  unfold activeOut pwmA pwmB
  cases s.pwm_chan <;> simp [h]

/-! ### The duty table -/

theorem find_below {m : Memory} {lo a : Nat} (h : Memory.wfFrom lo m = true) (ha : a < lo) :
    Memory.find m a = none := by
  induction m generalizing lo with
  | nil => rfl
  | cons c m ih =>
    simp only [Memory.wfFrom, Bool.and_eq_true, decide_eq_true_eq] at h
    have hne : ¬ c.1 = a := by omega
    simp only [Memory.find, if_neg hne]
    exact ih h.2 (by omega)

/-- What a canonical image lists lies in the table and differs from the default. -/
theorem find_some {m : Memory} {lo a : Nat} {b : Byte} (h : Memory.wfFrom lo m = true)
    (e : Memory.find m a = some b) : a < Config.tableLen ∧ b ≠ defaultThresh (BitVec.ofNat 2 a) := by
  induction m generalizing lo with
  | nil => simp [Memory.find] at e
  | cons c m ih =>
    simp only [Memory.wfFrom, Bool.and_eq_true, decide_eq_true_eq, bne_iff_ne] at h
    simp only [Memory.find] at e
    split at e
    · rename_i hc
      cases e
      subst hc
      exact ⟨h.1.1.2, h.1.2⟩
    · exact ih h.2 e

theorem reset_mem_wf : Memory.wf State.reset.mem = true := rfl

/-- A table given as the build argument is held in canonical form. -/
theorem ofTable_wf (t0 t1 t2 t3 : Byte) : Memory.wf (Memory.ofTable t0 t1 t2 t3) = true := by
  unfold Memory.ofTable Memory.cell
  split_ifs <;> simp_all [Memory.wf, Memory.wfFrom, Config.tableLen]

/-- Every register operation keeps the table, and with it the canonical form: there is no MemWrite (R14). -/
theorem register_operations_keep_mem (b a : Bit) (thr : Byte) (d : Bit) (s : State) :
    (loadReset b a s).mem = s.mem ∧ (shiftSync b a s).mem = s.mem ∧ (advanceCursor s).mem = s.mem ∧
    (loadPwm thr d s).mem = s.mem ∧ (tickCounter s).mem = s.mem ∧ (setBtnFlag s).mem = s.mem ∧
    (setDirFlag s).mem = s.mem ∧ (clearBtnFlag s).mem = s.mem ∧ (clearDirFlag s).mem = s.mem := by
  simp

end Sys2Proof.Machine
end

