-- ==== Sys2Proof/Laws/PerInstr.lean ====
section
/-! SUPPORT. A statement about every operation as syntax, one lemma per constructor: each encoding, whatever its don't-care
bits, lies in the operation's own row of the opcode table. -/

namespace Sys2Proof.Laws.EncodingInRow

/-- The encoding has the row's format and its masked bits are the row's match. -/
def Statement (i : Instr) : Prop :=
  ∀ x : DontCare, (encodeWith x i).format = i.format ∧ i.row.covers (encodeWith x i) = true

theorem reset (btn_b_n btn_a_n : Bit) : Statement (.reset btn_b_n btn_a_n) :=
  have h : ∀ b a : Bit, (Instr.row (.reset b a)).covers (.inp (mkIn true b a)) = true := by decide
  fun _ => ⟨rfl, h btn_b_n btn_a_n⟩

theorem sync (btn_b_n btn_a_n : Bit) : Statement (.sync btn_b_n btn_a_n) :=
  have h : ∀ b a : Bit, (Instr.row (.sync b a)).covers (.inp (mkIn false b a)) = true := by decide
  fun _ => ⟨rfl, h btn_b_n btn_a_n⟩

theorem setBtn : Statement .setBtn :=
  have h : ∀ hi : Bit, (Instr.row .setBtn).covers (.ev (mkEv hi true)) = true := by decide
  fun x => ⟨rfl, h x.hi⟩

theorem setDir : Statement .setDir :=
  have h : ∀ lo : Bit, (Instr.row .setDir).covers (.ev (mkEv true lo)) = true := by decide
  fun x => ⟨rfl, h x.lo⟩

theorem noEvent : Statement .noEvent :=
  have h : (Instr.row .noEvent).covers (.ev 0b00) = true := by decide
  fun _ => ⟨rfl, h⟩

theorem initApply : Statement .initApply :=
  have h : ∀ hi lo : Bit, (Instr.row .initApply).covers (.cw (mkCw false hi lo)) = true := by decide
  fun x => ⟨rfl, h x.hi x.lo⟩

theorem svcIdle : Statement .svcIdle :=
  have h : (Instr.row .svcIdle).covers (.cw 0b100) = true := by decide
  fun _ => ⟨rfl, h⟩

theorem svcDir : Statement .svcDir :=
  have h : ∀ lo : Bit, (Instr.row .svcDir).covers (.cw (mkCw true true lo)) = true := by decide
  fun x => ⟨rfl, h x.lo⟩

theorem svcDuty : Statement .svcDuty :=
  have h : (Instr.row .svcDuty).covers (.cw 0b101) = true := by decide
  fun _ => ⟨rfl, h⟩

theorem pwmApply (thr : Byte) (dir : Bit) : Statement (.pwmApply thr dir) :=
  have h : ∀ lo : Bit, (Instr.row (.pwmApply 0 false)).covers (.pw (mkPw true lo) 0 false) = true := by decide
  fun x => ⟨rfl, h x.lo⟩

theorem pwmTick : Statement .pwmTick :=
  have h : (Instr.row .pwmTick).covers (.pw 0b01 0 false) = true := by decide
  fun _ => ⟨rfl, h⟩

theorem pwmHold : Statement .pwmHold :=
  have h : (Instr.row .pwmHold).covers (.pw 0b00 0 false) = true := by decide
  fun _ => ⟨rfl, h⟩

end Sys2Proof.Laws.EncodingInRow
end

