-- ==== Sys2Proof/Tests/Slice0.lean ====
section
/-! SUPPORT. Checks of the model's own writer: the well-formedness smoke tests, words written out from 30_encoding.md's
tables, one-cycle vectors of 95_test_vectors.md, and for every statement with hypotheses a witness that meets them. -/

namespace Sys2Proof.Tests

open Sys2Proof Sys2Proof.Machine

/-- A running state with the default table: entry 0 applied forward, the cursor at 1, all chains at 1. -/
def running : State := { State.reset with inited := true, next_index := 1, pwm_run := true }

/-- Line A has just been seen to fall. -/
def fallingA (s : State) : State := { s with a_p := true, a_s := false }

/-- Line B has just been seen to fall. -/
def fallingB (s : State) : State := { s with b_p := true, b_s := false }

/-- A running state at 25% with the counter at `c`. -/
def quarter (c : Byte) : State :=
  { running with next_index := 2, last_index := 1, pwm_thr := 64, pwm_cnt := c }

/-! ### Well-formedness refuses ill-formed terms -/

theorem test_wf_no_zero_count : Directive.wellFormed (.rst 0) = false := by decide
theorem test_wf_no_zero_wait : Directive.wellFormed (.wait 0) = false := by decide
theorem test_wf_raw_needs_octal_digit : Directive.wellFormed (.raw 1 8) = false := by decide
theorem test_wf_raw_needs_count : Directive.wellFormed (.raw 0 7) = false := by decide
theorem test_wf_good_program : programWellFormed [.por, .wait 2, .pressA] = true := by decide
theorem test_wf_program_refuses_bad_part : programWellFormed [.por, .idle 0] = false := by decide
theorem test_wf_fraction_above_one : Frac.wellFormed ⟨3, 2⟩ = false := by decide
theorem test_wf_fraction_without_denominator : Frac.wellFormed ⟨0, 0⟩ = false := by decide
theorem test_wf_reset_stands_alone : cycleWellFormed [.reset true true, .svcIdle] = false := by decide
theorem test_wf_cycle_needs_sync : cycleWellFormed [.noEvent, .svcIdle, .pwmTick] = false := by decide
theorem test_wf_no_event_with_set :
    cycleWellFormed [.noEvent, .setBtn, .svcIdle, .pwmTick, .sync true true] = false := by decide
theorem test_wf_one_service : cycleWellFormed [.noEvent, .svcDir, .svcDuty, .pwmApply 0 true, .sync true true] = false := by
  decide
theorem test_wf_one_driver_operation : cycleWellFormed [.noEvent, .svcIdle, .pwmTick, .pwmHold, .sync true true] = false := by
  decide
theorem test_wf_idle_applies_nothing : cycleWellFormed [.noEvent, .svcIdle, .pwmApply 0 true, .sync true true] = false := by
  decide
theorem test_wf_good_cycle : cycleWellFormed [.setBtn, .svcDuty, .pwmApply 64 false, .sync true true] = true := by decide

/-! ### Words written out from the tables of 30_encoding.md -/

theorem test_decode_reset : decode (.inp 0b101) = [.reset false true] := by decide
theorem test_decode_sync : decode (.inp 0b010) = [.sync true false] := by decide
theorem test_decode_set_btn : decode (.ev 0b01) = [.setBtn] := by decide
theorem test_decode_set_dir : decode (.ev 0b10) = [.setDir] := by decide
theorem test_decode_both_edges : decode (.ev 0b11) = [.setBtn, .setDir] := by decide
theorem test_decode_no_event : decode (.ev 0b00) = [.noEvent] := by decide
theorem test_decode_init_apply : decode (.cw 0b011) = [.initApply] := by decide
theorem test_decode_svc_idle : decode (.cw 0b100) = [.svcIdle] := by decide
theorem test_decode_svc_dir : decode (.cw 0b111) = [.svcDir] := by decide
theorem test_decode_svc_duty : decode (.cw 0b101) = [.svcDuty] := by decide
theorem test_decode_pwm_apply : decode (.pw 0b11 159 true) = [.pwmApply 159 true] := by decide
theorem test_decode_pwm_tick : decode (.pw 0b01 159 true) = [.pwmTick] := by decide
theorem test_decode_pwm_hold : decode (.pw 0b00 159 true) = [.pwmHold] := by decide
theorem test_decode_refuses_wide_word : decodeInNat 8 = .error (.notAnInWord 8) := rfl
theorem test_table_word_reset : decodeTableWord 8 4 = some (.reset false false) := by decide
theorem test_table_has_every_row : opcodeTable.map (·.mnemonic) =
    ["RESET", "SYNC", "SET_BTN", "SET_DIR", "NO_EVENT", "INIT_APPLY", "SVC_IDLE", "SVC_DIR", "SVC_DUTY", "PWM_APPLY",
     "PWM_TICK", "PWM_HOLD"] := by decide
/-- R76 and program P3's encoding. -/
theorem test_program_text : programText [.por, .wait 2, .pressA, .pressAB] = "7332222333300003333".toList := by decide
theorem test_program_comment : readDigits "73 2;x9".toList = .ok [0b111, 0b011, 0b010] := rfl
theorem test_program_bad_digit : readDigits "738".toList = .error (.notAnOctalDigit '8') := rfl

/-! ### Every table word, in its own format, is run by a first step after reset or on a state that forms it -/

theorem test_first_step_runs_sync : step (State.reset.withFetchWord 8 0b000) =
    .next { State.reset with
      inited := true, next_index := 1, pwm_run := true, pwm_thr := memRead [] 0, a_m := false, b_m := false } := rfl

theorem test_first_step_runs_reset : step (State.reset.withFetchWord 8 0b100) = .next (State.resetWith false false) := rfl

theorem test_states_form_their_words :
    opsOf 0b011 State.reset = [.noEvent, .initApply, .pwmApply 0 false, .sync true true] ∧
    opsOf 0b011 running = [.noEvent, .svcIdle, .pwmTick, .sync true true] ∧
    opsOf 0b011 (fallingA { running with btn_flag := true }) =
      [.setBtn, .svcDuty, .pwmApply 64 false, .sync true true] ∧
    opsOf 0b011 (fallingB { running with dir_flag := true }) = [.setDir, .svcDir, .pwmApply 0 true, .sync true true] ∧
    opsOf 0b011 { running with pwm_run := false } = [.noEvent, .svcIdle, .pwmHold, .sync true true] := by
  decide

/-! ### One-cycle vectors of 95_test_vectors.md -/

/-- T-CONV-2, T-CONV-3, T-CONV-4. -/
theorem test_conv_default_table : (List.map (fun i => memRead [] i) [0, 1, 2, 3]) = [0, 64, 159, 223] := by decide
/-- T-CONV-5, T-CONV-6 (the tie), T-CONV-7, T-CONV-8. -/
theorem test_conv_rounding : [(⟨1, 1⟩ : Frac), ⟨1, 2⟩, ⟨2, 1000⟩, ⟨1, 1000⟩].map roundHalfUp = [255, 128, 1, 0] := by decide
/-- T-FLG-1. -/
theorem test_flg1_sync : cycle 0b010 running = .next { running with a_m := false, pwm_cnt := 1 } := rfl
/-- T-FLG-2. -/
theorem test_flg2_rising_edge : cycle 0b011 { running with a_p := false } = .next { running with pwm_cnt := 1 } := rfl
/-- T-FLG-3. -/
theorem test_flg3_both_edges : cycle 0b011 (fallingA (fallingB { running with pwm_cnt := 3 })) =
    .next { running with btn_flag := true, dir_flag := true, a_p := false, b_p := false, pwm_cnt := 4 } := rfl
/-- T-FLG-4. -/
theorem test_flg4_set_wins_duty :
    cycle 0b011 (fallingA { running with btn_flag := true, pwm_cnt := 10 }) =
      .next { running with
        btn_flag := true, next_index := 2, last_index := 1, pwm_thr := memRead [] 1, pwm_cnt := 10, a_p := false } := rfl
/-- T-FLG-5. -/
theorem test_flg5_set_wins_dir :
    cycle 0b011 (fallingB { running with dir_flag := true, pwm_cnt := 10 }) =
      .next { running with
        dir_flag := true, dir := true, pwm_chan := true, pwm_thr := memRead [] 0, pwm_cnt := 10, b_p := false } := rfl
/-- T-FLG-6. -/
theorem test_flg6_absorbed :
    cycle 0b011 (fallingA { quarter 10 with btn_flag := true, dir_flag := true }) =
      .next { quarter 10 with
        btn_flag := true, dir := true, pwm_chan := true, pwm_thr := memRead [] 1, a_p := false } := rfl
/-- T-FLG-7. -/
theorem test_flg7_dropped : cycle 0b011 (fallingA (fallingB State.reset)) =
    .next { running with pwm_thr := memRead [] 0, a_p := false, b_p := false } := rfl
/-- T-CTL-4. -/
theorem test_ctl4_wrap :
    cycle 0b011 { running with next_index := 3, last_index := 2, pwm_thr := 159, pwm_cnt := 10, btn_flag := true } =
      .next { running with next_index := 0, last_index := 3, pwm_thr := memRead [] 3, pwm_cnt := 10 } := rfl
/-- T-CTL-6. -/
theorem test_ctl6_backward : cycle 0b011 { quarter 10 with dir_flag := true } =
    .next { quarter 10 with dir := true, pwm_chan := true, pwm_thr := memRead [] 1 } := rfl
/-- T-CTL-8. -/
theorem test_ctl8_both_pending : cycle 0b011 { quarter 10 with dir_flag := true, btn_flag := true } =
    .next { quarter 10 with dir := true, pwm_chan := true, pwm_thr := memRead [] 1, btn_flag := true } := rfl
/-- T-CTL-10. -/
theorem test_ctl10_unreachable_word : cycle 0b011 { State.reset with btn_flag := true, dir_flag := true } =
    .next { running with pwm_thr := memRead [] 0 } := rfl
/-- T-PWM-1 and T-PWM-2. -/
theorem test_pwm_wraps : nextCount 254 = 0 ∧ nextCount 255 = 0 ∧ nextCount 7 = 8 := by decide
/-- T-PWM-3. -/
theorem test_pwm3_hold : cycle 0b011 { running with pwm_run := false, pwm_cnt := 9 } =
    .next { running with pwm_run := false, pwm_cnt := 9 } := rfl
/-- T-PWM-4. -/
theorem test_pwm4_idempotent :
    runOps [.pwmApply 64 false, .pwmApply 64 false] (quarter 40) = .next (quarter 40) := rfl
/-- T-OUT-1 to T-OUT-3. -/
theorem test_out_low_duty :
    pwmA (quarter 63) = true ∧ pwmA (quarter 64) = false ∧ pwmA { quarter 0 with pwm_thr := 0 } = false := by decide
/-- T-OUT-4, T-OUT-5, T-OUT-7. -/
theorem test_out_full_duty :
    pwmA { quarter 254 with pwm_thr := 255 } = true ∧
    pwmB { quarter 254 with pwm_thr := 255, pwm_chan := true } = true ∧
    pwmA { quarter 254 with pwm_thr := 255, pwm_chan := true } = false ∧
    pwmA { quarter 10 with pwm_run := false } = false := by decide
/-- T-RST-1. -/
theorem test_rst1 : cycle 0b101 { quarter 77 with next_index := 3, dir := true, pwm_chan := true, btn_flag := true } =
    .next (State.resetWith false true) := rfl
/-- R34: PWMCFG after reset and after INIT_APPLY. -/
theorem test_pwmcfg : pwmcfg State.reset = 0x1400 ∧ pwmcfg running = 0x1600 := by decide
/-- T-TX-1. -/
theorem test_tx1 : txRun [.edgeA, .edgeA, .service] (txOf running) =
    { txOf running with next_index := 2, last_index := 1, pwm_thr := 64 } := by decide
/-- T-TX-4. -/
theorem test_tx4 : txRun [.edgeA, .service] (txOf State.reset) = txOf running := by decide

/-! ### Witnesses: each statement's hypotheses are met together -/

theorem inRst_cases : inRst 0b111 = true ∧ inRst 0b011 = false ∧ inRst 0b000 = false := by decide

theorem reachable_boot : Reachable (loadReset true true State.reset) := .reset true true State.reset rfl

theorem reachable_running : ∃ s, Reachable s ∧ s.inited = true ∧ ctlOp s = .svcIdle :=
  ⟨_, .cycle 0b011 reachable_boot rfl, by decide⟩

/-- Both lines low from the first cycle after a reset with released buttons. -/
theorem reachable_both_pending : ∃ s, Reachable s ∧ s.btn_flag = true ∧ s.dir_flag = true ∧ ctlOp s = .svcDir :=
  ⟨_, .cycle 0b000 (.cycle 0b000 (.cycle 0b000 reachable_boot rfl) rfl) rfl, by decide⟩

theorem test_witness_DecodeEncodeRoundTrip :
    Instr.wellFormed (.pwmApply 255 true) = true ∧ Instr.format (.pwmApply 255 true) ≠ .ev := by decide

theorem test_witness_InWordDecode : inRst 0b100 = true ∧ inRst 0b000 = false := by decide

theorem test_witness_CwWordDecode :
    (inRst 0b011 = false ∧ ∃ s : State, s.inited = true ∧ s.dir_flag = true ∧ s.btn_flag = true) ∧
    ∃ s, Reachable s ∧ s.inited = false :=
  ⟨⟨by decide, { running with dir_flag := true, btn_flag := true }, rfl, rfl, rfl⟩, _, reachable_boot, rfl⟩

theorem test_witness_PwWordDecode :
    applyDrive (ctlOp State.reset) State.reset = some ⟨0, false⟩ ∧
    applyDrive (ctlOp running) running = none ∧ running.pwm_run = true ∧
    applyDrive (ctlOp { running with pwm_run := false }) { running with pwm_run := false } = none := by decide

theorem test_witness_StepRunsDecodedWord :
    (State.reset.withFetchWord 8 4).pins_ahead = [0b100] ∧ inRst 0b100 = true ∧
    (State.reset.withFetchWord 8 3).pins_ahead = [0b011] ∧ inRst 0b011 = false ∧ State.reset.pins_ahead = [] := by decide

theorem test_witness_ResetEffect : inRst 0b101 = true := by decide

theorem test_witness_BootSequence : inRst 0b100 = true ∧ inRst 0b011 = false := by decide

theorem test_witness_SynchronizerIsPureDelay : inRst 0b010 = false ∧ inRst 0b001 = false := by decide

theorem test_witness_SetBtnEffect : inRst 0b011 = false ∧ fallA (fallingA running) = true := by decide

theorem test_witness_SetDirEffect :
    (inRst 0b011 = false ∧ fallB (fallingB running) = true) ∧ ∃ s, Reachable s ∧ ctlOp s = .svcDir :=
  have ⟨s, h, _, _, hc⟩ := reachable_both_pending
  ⟨by decide, s, h, hc⟩

theorem test_witness_NoEventEffect :
    inRst 0b011 = false ∧ fallA running = false ∧ fallB running = false := by decide

/-- One state per clause: the plain equations, and each set that meets its clear. -/
theorem test_witness_FlagEquations :
    inRst 0b011 = false ∧
    (let s := fallingA { running with btn_flag := true }
     s.inited = true ∧ fallA s = true ∧ clrBtn (ctlOp s) = true) ∧
    (let s := fallingB { running with dir_flag := true }
     s.inited = true ∧ fallB s = true ∧ clrDir (ctlOp s) = true) := by decide

theorem test_witness_FlagSetTouchesOnlyItsFlag :
    (∃ t, exec .setBtn running = .next t) ∧ (∃ t, exec .setDir running = .next t) ∧
    (let s := { quarter 9 with dir_flag := true }
     (∃ t, exec .setBtn s = .next t) ∧ running.inited = s.inited ∧ running.btn_flag = s.btn_flag ∧
       running.dir_flag ≠ s.dir_flag) ∧
    (let s := { quarter 9 with btn_flag := true }
     (∃ t, exec .setDir s = .next t) ∧ running.inited = s.inited ∧ running.dir_flag = s.dir_flag ∧
       running.btn_flag ≠ s.btn_flag) :=
  ⟨⟨_, rfl⟩, ⟨_, rfl⟩, ⟨⟨_, rfl⟩, rfl, rfl, by decide⟩, ⟨_, rfl⟩, rfl, rfl, by decide⟩

theorem test_witness_CoalescingIsOneService :
    (txOf running).inited = true ∧ (txOf running).dir_flag = false ∧
    ({ running with btn_flag := true } : State).btn_flag = true ∧
    ({ running with dir_flag := true } : State).dir_flag = true := by decide

theorem test_witness_NoConsecutiveFalls :
    ∃ t, inRst 0b011 = false ∧ cycle 0b011 (fallingA (fallingB running)) = .next t ∧
      fallA (fallingA (fallingB running)) = true ∧ fallB (fallingA (fallingB running)) = true ∧
      EdgeInv (fallingA (fallingB running)) ∧ t.dir_flag = true :=
  ⟨_, by decide, rfl, by decide, by decide, by decide, by decide⟩

theorem test_witness_PendingFlagHadItsEdge :
    ∃ t, runWords [0b011] (fallingA (fallingB running)) = .next t ∧ running.btn_flag = false ∧ t.btn_flag = true ∧
      running.dir_flag = false ∧ t.dir_flag = true :=
  ⟨_, rfl, by decide⟩

theorem test_witness_EdgeInvariantKept :
    ∃ t, EdgeInv (running.withFetchWord 8 3) ∧ step (running.withFetchWord 8 3) = .next t :=
  ⟨_, by decide, rfl⟩

theorem test_witness_EveryDetectedFallIsServedOnce :
    ∃ t, EdgeInv (fallingA running) ∧ running.inited = true ∧ NoReset [0b011] ∧
      runWords [0b011] (fallingA running) = .next t :=
  ⟨_, by decide, by decide, by decide, rfl⟩

theorem test_witness_InitApplyEffect :
    State.reset.inited = false ∧ inRst 0b011 = false ∧ ∃ t, cycle 0b011 State.reset = .next t :=
  ⟨rfl, by decide, _, rfl⟩

theorem test_witness_SvcIdleEffect :
    (inRst 0b011 = false ∧ ctlOp running = .svcIdle) ∧ ∃ s, Reachable s ∧ ctlOp s = .svcIdle :=
  have ⟨s, h, _, hc⟩ := reachable_running
  ⟨by decide, s, h, hc⟩

theorem test_witness_SvcDirEffect :
    (∃ s, Reachable s ∧ inRst 0b011 = false ∧ ctlOp s = .svcDir ∧ s.btn_flag = true ∧ ∃ t, cycle 0b011 s = .next t) ∧
    (RunningInv running ∧ (∃ t, exec .svcDir running = .next t) ∧ ∃ t, runOps [.svcDir, .svcDir] running = .next t) ∧
    (let ws := [0b001, 0b011, 0b001, 0b011, 0b011, 0b011]
     running.inited = true ∧ NoReset ws ∧ (∃ t, runWords ws running = .next t) ∧
       (opsDone ws running).count .svcDir = 2 ∧ (opsDone ws running).count .svcDuty = 0) :=
  ⟨⟨_, .cycle 0b000 (.cycle 0b000 (.cycle 0b000 reachable_boot rfl) rfl) rfl, by decide, by decide, by decide, _, rfl⟩,
   ⟨by decide, ⟨_, rfl⟩, _, rfl⟩, rfl, by decide, ⟨_, rfl⟩, by decide, by decide⟩

theorem test_witness_SvcDutyEffect :
    (running.mem = [] ∧ ({ running with next_index := 3 } : State).next_index = 3) ∧
    ({ running with next_index := 0 } : State).next_index = 0 := by decide

theorem test_witness_PendingDutyServedWithinTwoCycles :
    inRst 0b011 = false ∧
    (let s := { running with btn_flag := true, dir_flag := true, a_p := false, b_p := false }
     EdgeInv s ∧ s.inited = true ∧ s.btn_flag = true ∧ s.dir_flag = true) ∧
    (let s := { running with btn_flag := true }
     EdgeInv s ∧ s.inited = true ∧ s.btn_flag = true ∧ s.dir_flag = false) := by decide

theorem test_witness_CursorCountsServices :
    ∃ t, running.inited = true ∧ RunningInv running ∧ NoReset [0b011] ∧ runWords [0b011] running = .next t :=
  ⟨_, by decide, by decide, by decide, rfl⟩

theorem test_witness_ConfigInvariantKept :
    ∃ t, ConfigInv (running.withFetchWord 8 3) ∧ step (running.withFetchWord 8 3) = .next t :=
  ⟨_, by decide, rfl⟩

theorem test_witness_ReachableStatesAreLegal :
    ∃ s, Reachable s ∧ ∃ t, step s = .next t :=
  ⟨_, .script [0b011] 0 reachable_boot, _, rfl⟩

/-- One cycle per clause: INIT_APPLY writes the sequencer and the cursor; SVC_DIR, SVC_DUTY and SET_* the rest. -/
theorem test_witness_RegistersChangeOnlyByTheirWriters :
    inRst 0b011 = false ∧
    (∃ t, cycle 0b011 { State.reset with btn_flag := true, dir_flag := true, next_index := 2 } = .next t ∧
      t.inited ≠ false ∧ t.next_index ≠ 2 ∧ t.last_index ≠ 0 ∧ t.btn_flag = false ∧ t.dir_flag = false ∧
      t.pwm_run ≠ false ∧ t.pwm_thr ≠ 0) ∧
    (∃ t, cycle 0b011 { running with dir_flag := true } = .next t ∧ t.dir ≠ false ∧ t.pwm_chan ≠ false) ∧
    (∃ t, cycle 0b011 (fallingA (fallingB running)) = .next t ∧ t.btn_flag = true ∧ t.dir_flag = true ∧
      t.pwm_cnt ≠ 0) :=
  ⟨by decide, ⟨_, rfl, by decide⟩, ⟨_, rfl, by decide⟩, ⟨_, rfl, by decide⟩⟩

theorem test_witness_PwmApplyEffect :
    running.pwm_run = true ∧ inRst 0b011 = false ∧ .pwmApply 0 false ∈ opsOf 0b011 State.reset ∧
      ∃ t, cycle 0b011 State.reset = .next t :=
  ⟨by decide, by decide, by decide, _, rfl⟩

theorem test_witness_PwmTickEffect : (quarter 254).pwm_cnt = 254 ∧ (quarter 255).pwm_cnt = 255 := by decide

theorem test_witness_PwmHoldEffect : ∃ s, Reachable s := ⟨_, reachable_boot⟩

theorem test_witness_InactiveAndStoppedOutputsLow :
    (∃ s, Reachable s ∧ s.pwm_run = false) ∧ State.reset.pwm_run = false ∧
    (pwmA (quarter 0) = true ∧ pwmB { quarter 0 with pwm_chan := true } = true) :=
  ⟨⟨_, reachable_boot, rfl⟩, rfl, by decide⟩

/-- A run with released buttons ticks from `quarter c` to `quarter (nextCount c)`, cycle by cycle. -/
theorem quarter_ticks (n : Nat) (c : Byte) :
    (opsDone (List.replicate n 0b011) (quarter c)).count .pwmTick = n := by
  induction n generalizing c with
  | zero => rfl
  | succ n ih =>
    have o : opsOf 0b011 (quarter c) = [.noEvent, .svcIdle, .pwmTick, .sync true true] := by
      have hc : ctlOp (quarter c) = .svcIdle := by
        simp [ctlOp, cwOf, quarter, running, State.reset, State.resetWith, decodeCw_mkCw]
      have hp : pwmOp (quarter c) = .pwmTick := by
        rw [pwmOp_of_no_drive _ (by rw [hc]; rfl)]
        rfl
      have he : decodeEv (evOf (quarter c)) = [.noEvent] := by
        simp [evOf, decodeEv_mkEv, fallA, fallB, quarter, running, State.reset, State.resetWith]
      rw [opsOf, he, hc, hp]
      decide
    have h : cycle 0b011 (quarter c) = .next (quarter (nextCount c)) := by
      rw [cycle, o]
      rfl
    simp only [List.replicate_succ, opsDone, h, o, List.count_append, ih]
    simp [Nat.add_comm]

theorem test_witness_DutyWindowHasThresholdHighCycles :
    (quarter 0).pwm_run = true ∧ (quarter 0).pwm_cnt.toNat < 255 ∧ NoReset (List.replicate 255 0b011) ∧
    (List.replicate 255 (0b011 : InWord)).length = 255 ∧
    (opsDone (List.replicate 255 0b011) (quarter 0)).count .pwmTick = 255 :=
  ⟨rfl, by decide, fun w h => by rw [List.eq_of_mem_replicate h]; decide, List.length_replicate, quarter_ticks 255 0⟩

/-- Both clauses, at both ends of the counter's range. -/
theorem test_witness_BoundaryThresholdsAreConstant :
    let s := { quarter 254 with pwm_thr := 255 }
    let z := { quarter 0 with pwm_thr := 0 }
    s.pwm_run = true ∧ s.pwm_cnt.toNat < 255 ∧ NoReset [0b011] ∧ s.pwm_thr = 255 ∧
    (∀ i ∈ opsDone [0b011] s, i.isPwmApply = false) ∧ s ∈ statesOf [0b011] s ∧
    z.pwm_run = true ∧ z.pwm_cnt.toNat < 255 ∧ z.pwm_thr = 0 ∧
    (∀ i ∈ opsDone [0b011] z, i.isPwmApply = false) ∧ z ∈ statesOf [0b011] z := by decide

theorem test_witness_WaveformEdges :
    ∃ t, inRst 0b011 = false ∧ .pwmTick ∈ opsOf 0b011 (quarter 63) ∧ cycle 0b011 (quarter 63) = .next t ∧
      (quarter 63).pwm_cnt.toNat < 255 ∧ 0 < (quarter 63).pwm_thr.toNat ∧ (quarter 63).pwm_thr.toNat < 255 :=
  ⟨_, by decide, by decide, rfl, by decide, by decide, by decide⟩

theorem test_witness_CounterCountsTicks :
    ∃ t, (quarter 254).pwm_cnt.toNat < 255 ∧ NoReset [0b011] ∧ runWords [0b011] (quarter 254) = .next t ∧
      (quarter 254).pwm_run = true :=
  ⟨_, by decide, by decide, rfl, rfl⟩

theorem test_witness_ThresholdIsRoundedFraction : 0 < (⟨1, 2⟩ : Frac).den ∧ Frac.wellFormed ⟨1, 1⟩ = true := by decide

theorem test_witness_TableNeverChanges :
    (∃ t, exec .svcDuty running = .next t) ∧ (∃ t, step (running.withFetchWord 8 3) = .next t) ∧
      Memory.wf (running.withFetchWord 8 3).mem = true :=
  ⟨⟨_, rfl⟩, ⟨_, rfl⟩, rfl⟩

theorem test_witness_TableArgumentReadsBack :
    Memory.wf (Memory.ofTable 1 64 2 255) = true ∧ Memory.ofTable 1 64 2 255 = [(0, 1), (2, 2), (3, 255)] := by decide

/-- Both lines pressed together, so that line A waits behind the toggle, and line A pressed alone. -/
theorem test_witness_PressToServiceLatency :
    (NoReset [0b000, 0b011, 0b011, 0b011, 0b011] ∧ inBtnB 0b011 = true ∧ inBtnB 0b000 = false ∧
      inBtnA 0b011 = true ∧ inBtnA 0b000 = false ∧
      ∃ s3, runWords [0b011, 0b000, 0b011, 0b011] running = .next s3 ∧ s3.btn_flag = true ∧ s3.dir_flag = true) ∧
    (NoReset [0b010, 0b011, 0b011, 0b011, 0b011] ∧ inBtnA 0b011 = true ∧ inBtnA 0b010 = false ∧
      ∃ s3, runWords [0b011, 0b010, 0b011, 0b011] running = .next s3 ∧ s3.btn_flag = true ∧ s3.dir_flag = false) :=
  ⟨⟨by decide, by decide, by decide, by decide, by decide, _, rfl, by decide⟩,
   by decide, by decide, by decide, _, rfl, by decide⟩

theorem test_witness_HeldThroughResetIsNoPress :
    inRst 0b100 = true ∧ inRst 0b000 = false ∧ inBtnA 0b100 = false ∧ inBtnB 0b100 = false ∧
    (∃ r, cycle 0b100 running = .next r ∧ r ∈ statesOf [0b000] r) ∧ (∀ w ∈ [(0b000 : InWord)], inBtnA w = false) ∧
    (∀ w ∈ [(0b000 : InWord)], inBtnB w = false) :=
  ⟨by decide, by decide, by decide, by decide, ⟨_, rfl, List.mem_cons_self⟩, by decide, by decide⟩

theorem test_witness_CyclesRefineTransactions :
    (∃ t, inRst 0b011 = false ∧ cycle 0b011 running = .next t ∧ running.inited = true) ∧
    (∃ t, cycle 0b011 State.reset = .next t ∧ State.reset.inited = false) ∧
    (∃ t, NoReset [0b011] ∧ runWords [0b011] running = .next t) :=
  ⟨⟨_, by decide, rfl, rfl⟩, ⟨_, rfl, rfl⟩, ⟨_, by decide, rfl⟩⟩

theorem test_witness_StimulusTextReadsBack :
    (0 < 8 ∧ 7 < 8) ∧ Directive.wellFormed (.raw 1 7) = true ∧ Directive.wellFormed .pressAB = true ∧
      '\n' ∉ "; x7".toList := by decide

end Sys2Proof.Tests
end

section
/-! PROOFS of 00_scope.md: the duty-fraction conversion (R9) and the build in each mode (R6, R7). -/

namespace Sys2Proof.Machine

/-! ### The conversion of a fraction (R9) -/

theorem frac_wellFormed_iff (f : Frac) : f.wellFormed = true ↔ 0 < f.den ∧ f.num ≤ f.den := by
  simp [Frac.wellFormed]

/-- The exact value that R9 floors, over the one denominator `2 * den` that the model divides by. -/
theorem frac_scaled_eq_div (f : Frac) (hden : 0 < f.den) :
    (f.num : ℚ) / f.den * 255 + 1 / 2 = ((2 * f.num * Config.maxCount + f.den : ℕ) : ℚ) / ((2 * f.den : ℕ) : ℚ) := by
  have hne : (f.den : ℚ) ≠ 0 := by exact_mod_cast hden.ne'
  simp only [Config.maxCount]
  push_cast
  field_simp

theorem roundHalfUp_eq_floor (f : Frac) (hden : 0 < f.den) :
    (roundHalfUp f : ℤ) = ⌊(f.num : ℚ) / f.den * 255 + 1 / 2⌋ := by
  rw [frac_scaled_eq_div f hden, Rat.floor_natCast_div_natCast, roundHalfUp, Int.natCast_ediv]

/-- A fraction in [0, 1] rounds to at most the full scale: `(510 * num + den) / (2 * den) ≤ 511 / 2`. -/
theorem roundHalfUp_le_maxCount (f : Frac) (hf : f.wellFormed = true) : roundHalfUp f ≤ Config.maxCount := by
  obtain ⟨hden, hle⟩ := (frac_wellFormed_iff f).1 hf
  have hlt : 2 * f.num * 255 + f.den < 2 * f.den * 256 := by omega
  exact Nat.le_of_lt_succ (Nat.div_lt_of_lt_mul hlt)

/-- The threshold's 8 bits hold the whole rounded value, so nothing is cut off. -/
theorem threshOf_toNat (f : Frac) (hf : f.wellFormed = true) : (threshOf f).toNat = roundHalfUp f := by
  have hle : roundHalfUp f ≤ 255 := roundHalfUp_le_maxCount f hf
  rw [threshOf, BitVec.toNat_ofNat, Nat.mod_eq_of_lt (by omega)]

/-! ### The default table (R7) -/

theorem dutyFrac_wellFormed (i : Index) : (Config.dutyFrac i).wellFormed = true := by
  unfold Config.dutyFrac
  split_ifs <;> rfl

theorem defaultThresh_toNat (i : Index) : (defaultThresh i).toNat = roundHalfUp (Config.dutyFrac i) :=
  threshOf_toNat _ (dutyFrac_wellFormed i)

/-- An image that lists nothing reads as the default table. -/
@[simp] theorem memRead_nil (i : Index) : memRead [] i = defaultThresh i := rfl

theorem defaultThresh_values :
    defaultThresh 0 = 0 ∧ defaultThresh 1 = 64 ∧ defaultThresh 2 = 159 ∧ defaultThresh 3 = 223 := by decide

/-- Settles O48: the model's division is the floor over a common denominator, and a fraction in [0, 1] stays within the
8 bits of a threshold. -/
theorem thresholdIsRoundedFraction : Obligations.ThresholdIsRoundedFraction := by
  unfold Obligations.ThresholdIsRoundedFraction
  refine ⟨roundHalfUp_eq_floor, threshOf_toNat, fun i => ⟨defaultThresh_toNat i, memRead_nil i⟩, ?_⟩
  simpa only [memRead_nil] using defaultThresh_values

/-! ### The build in each mode (R6) -/

@[simp] theorem build_potentiometer_refused (t0 t1 t2 t3 : Byte) (b a : Bit) :
    build .potentiometerDutyCycleWithHBridge t0 t1 t2 t3 b a = .refused .modeOutsideSpec := rfl

@[simp] theorem build_button_next (t0 t1 t2 t3 : Byte) (b a : Bit) :
    build .buttonDutyCycle t0 t1 t2 t3 b a =
      .next { State.resetWith b a with mem := Memory.ofTable t0 t1 t2 t3 } := rfl

/-- Settles O12, one equation of `build` per mode. -/
theorem otherModeRefused : Obligations.OtherModeRefused := by
  unfold Obligations.OtherModeRefused
  intro t0 t1 t2 t3 b a
  exact ⟨build_potentiometer_refused t0 t1 t2 t3 b a, build_button_next t0 t1 t2 t3 b a⟩

end Sys2Proof.Machine
end

section
/-! PROOFS of 30_encoding.md: the IN decode (R66), the CW decode (R67), the controller's signals (R69) and the PW decode
(R71). -/

namespace Sys2Proof.Machine

/-! ### Performing operations -/

/-- No operation faults or is refused (R150). -/
theorem exec_answers (i : Instr) (s : State) : ∃ t, exec i s = .next t := by
  cases i <;> exact ⟨_, rfl⟩

theorem runOps_answers (l : List Instr) (s : State) : ∃ t, runOps l s = .next t := by
  induction l generalizing s with
  | nil => exact ⟨s, rfl⟩
  | cons i l ih =>
    obtain ⟨u, hu⟩ := exec_answers i s
    rw [runOps_cons i l s u hu]
    exact ih u

/-- What each operation of a list keeps, performing the list keeps. -/
theorem runOps_keeps {P : State → Prop} {l : List Instr} {s t : State}
    (kept : ∀ i ∈ l, ∀ u v, exec i u = .next v → P u → P v) (e : runOps l s = .next t) (hs : P s) : P t := by
  induction l generalizing s with
  | nil => cases e; exact hs
  | cons i l ih =>
    obtain ⟨u, hu⟩ := exec_answers i s
    rw [runOps_cons i l s u hu] at e
    exact ih (fun j hj => kept j (List.mem_cons_of_mem i hj)) e (kept i List.mem_cons_self s u hu hs)

/-! ### Which operations a cycle performs (R65, R66) -/

theorem decodeIn_of_reset {w : InWord} (h : inRst w = true) : decodeIn w = .reset (inBtnB w) (inBtnA w) := by
  rw [decodeIn, if_pos h]

theorem decodeIn_of_no_reset {w : InWord} (h : inRst w = false) : decodeIn w = .sync (inBtnB w) (inBtnA w) := by
  rw [decodeIn, if_neg (by simp [h])]

theorem opsOf_of_reset {w : InWord} (s : State) (h : inRst w = true) :
    opsOf w s = [.reset (inBtnB w) (inBtnA w)] := by
  rw [opsOf, if_pos h, decodeIn_of_reset h]

theorem opsOf_of_no_reset {w : InWord} (s : State) (h : inRst w = false) :
    opsOf w s = decodeEv (evOf s) ++ [ctlOp s, pwmOp s, .sync (inBtnB w) (inBtnA w)] := by
  rw [opsOf, if_neg (by simp [h]), decodeIn_of_no_reset h]

/-- Settles O2, by the two values of `rst`. -/
theorem inWordDecode : Obligations.InWordDecode := by
  unfold Obligations.InWordDecode
  intro w s
  exact ⟨fun h => ⟨decodeIn_of_reset h, opsOf_of_reset s h⟩, fun h => ⟨decodeIn_of_no_reset h, opsOf_of_no_reset s h⟩⟩

theorem format_of_mem_decodeEv {w : EvWord} {i : Instr} (h : i ∈ decodeEv w) : i.format = .ev := by
  have all : ∀ w : EvWord, ∀ i ∈ decodeEv w, i.format = .ev := by decide
  exact all w i h

theorem decodePw_format (w : PwWord) (thr : Byte) (d : Bit) : (decodePw w thr d).format = .pw := by
  unfold decodePw
  split_ifs <;> rfl

theorem pwmOp_format (s : State) : (pwmOp s).format = .pw := by
  unfold pwmOp
  split <;> exact decodePw_format _ _ _

theorem isReset_of_format_ne_inp {i : Instr} (h : i.format ≠ .inp) : i.isReset = false := by
  cases i with
  | reset b a => exact absurd rfl h
  | _ => rfl

theorem clrBtn_of_format_ne_cw {i : Instr} (h : i.format ≠ .cw) : clrBtn i = false := by
  cases i with
  | initApply | svcDuty => exact absurd rfl h
  | _ => rfl

/-! ### The controller operation and its signals (R67, R69) -/

theorem ctlOp_eq (s : State) :
    ctlOp s =
      if s.inited = false then .initApply
      else if s.dir_flag = true then .svcDir
      else if s.btn_flag = true then .svcDuty else .svcIdle := by
  rw [ctlOp, cwOf, decodeCw_mkCw]
  cases s.inited <;> rfl

theorem ctlOp_format (s : State) : (ctlOp s).format = .cw := by
  rw [ctlOp_eq]
  split_ifs <;> rfl

theorem applyDrive_initApply (s : State) :
    applyDrive .initApply s = some ⟨memRead s.mem s.next_index, s.dir⟩ := rfl

theorem applyDrive_svcIdle (s : State) : applyDrive .svcIdle s = none := rfl

theorem applyDrive_svcDir (s : State) :
    applyDrive .svcDir s = some ⟨memRead s.mem s.last_index, !s.dir⟩ := rfl

theorem applyDrive_svcDuty (s : State) :
    applyDrive .svcDuty s = some ⟨memRead s.mem s.next_index, s.dir⟩ := rfl

/-- Settles O4, one row of R69's table per controller operation. -/
theorem controllerSignals : Obligations.ControllerSignals := by
  unfold Obligations.ControllerSignals
  intro s
  exact ⟨⟨applyDrive_initApply s, rfl, rfl⟩, ⟨applyDrive_svcIdle s, rfl, rfl⟩, ⟨applyDrive_svcDir s, rfl, rfl⟩,
    ⟨applyDrive_svcDuty s, rfl, rfl⟩⟩

/-- Each of the 8 CW words lies in one row of the table, its decoded operation's (R67). -/
theorem cw_rows (w : CwWord) : opcodeTable.filter (fun r => r.covers (.cw w)) = [(decodeCw w).row] := by
  revert w; decide

/-! ### A pending `btn_flag` waits for the operation that clears it -/

theorem exec_keeps_btn_flag {i : Instr} {s t : State} (hreset : i.isReset = false) (hclr : clrBtn i = false)
    (e : exec i s = .next t) (hs : s.btn_flag = true) : t.btn_flag = true := by
  cases i with
  | reset b a => cases hreset
  | initApply | svcDuty => cases hclr
  | setBtn =>
    cases e
    exact (flagNext_eq_true _ _ _).2 (.inr ⟨hs, rfl⟩)
  | _ => cases e; exact hs

/-- In a cycle that is no reset only the controller operation can clear `btn_flag`. -/
theorem cycle_keeps_btn_flag {w : InWord} {s t : State} (hw : inRst w = false) (hclr : clrBtn (ctlOp s) = false)
    (e : cycle w s = .next t) (hs : s.btn_flag = true) : t.btn_flag = true := by
  rw [cycle, opsOf_of_no_reset s hw] at e
  refine runOps_keeps (P := fun u => u.btn_flag = true) (fun i hi u v => ?_) e hs
  suffices h : i.isReset = false ∧ clrBtn i = false from exec_keeps_btn_flag h.1 h.2
  simp only [List.mem_append, List.mem_cons, List.not_mem_nil, or_false] at hi
  obtain hev | rfl | rfl | rfl := hi
  · have hf := format_of_mem_decodeEv hev
    exact ⟨isReset_of_format_ne_inp (by simp [hf]), clrBtn_of_format_ne_cw (by simp [hf])⟩
  · exact ⟨isReset_of_format_ne_inp (by simp [ctlOp_format]), hclr⟩
  · exact ⟨isReset_of_format_ne_inp (by simp [pwmOp_format]), clrBtn_of_format_ne_cw (by simp [pwmOp_format])⟩
  · exact ⟨rfl, rfl⟩

/-- `CW = 0b111`: SVC_DIR runs, and `clr_btn` is 0 for it (R69). -/
theorem cycle_both_pending_keeps_btn_flag {s : State} {w : InWord} (hw : inRst w = false) (hi : s.inited = true)
    (hd : s.dir_flag = true) (hb : s.btn_flag = true) : ∃ t, cycle w s = .next t ∧ t.btn_flag = true := by
  have hctl : ctlOp s = .svcDir := by simp [ctlOp_eq, hi, hd]
  obtain ⟨t, ht⟩ := runOps_answers (opsOf w s) s
  exact ⟨t, ht, cycle_keeps_btn_flag hw (by rw [hctl]; rfl) ht hb⟩

/-! ### No flag is pending before INIT_APPLY -/

/-- The three CW words with `inited = 0` and a flag set do not arise (R67). -/
abbrev FlagsClearBeforeInit (s : State) : Prop :=
  s.inited = false → s.dir_flag = false ∧ s.btn_flag = false

/-- Nothing sets a flag while `inited = 0` (R97): a set is gated by it, and a clear reads an edge gated by it. -/
theorem exec_keeps_flagsClearBeforeInit {i : Instr} {s t : State} (e : exec i s = .next t)
    (hs : FlagsClearBeforeInit s) : FlagsClearBeforeInit t := by
  intro ht
  cases i with
  | reset b a => cases e; exact ⟨rfl, rfl⟩
  | initApply => cases e; cases ht
  | setBtn | setDir | svcDir | svcDuty =>
    cases e
    have hi : s.inited = false := ht
    obtain ⟨hd, hb⟩ := hs hi
    simp [flagNext, hi, hd, hb]
  | _ => cases e; exact hs ht

theorem reachable_flagsClearBeforeInit {s : State} (h : Reachable s) : FlagsClearBeforeInit s := by
  induction h with
  | reset b a s hwf => exact fun _ => ⟨rfl, rfl⟩
  | cycle w _ e ih => exact runOps_keeps (fun _ _ _ _ => exec_keeps_flagsClearBeforeInit) e ih
  | script ws n _ ih => exact ih

/-- Settles O3: the decode, the rows, the flag that SVC_DIR does not clear, and the invariant of reached states. -/
theorem cwWordDecode : Obligations.CwWordDecode := by
  unfold Obligations.CwWordDecode
  exact ⟨ctlOp_eq, cw_rows, fun _ _ => cycle_both_pending_keeps_btn_flag, fun _ => reachable_flagsClearBeforeInit⟩

/-! ### The PWM driver operation (R71) -/

/-- The operand signals are no bits of the PW word, so a row does not see them (R65). -/
theorem covers_pw_operands (r : OpRow) (w : PwWord) (thr : Byte) (d : Bit) :
    r.covers (.pw w thr d) = r.covers (.pw w 0 false) := rfl

theorem decodePw_row_operands (w : PwWord) (thr : Byte) (d : Bit) :
    (decodePw w thr d).row = (decodePw w 0 false).row := by
  unfold decodePw
  split_ifs <;> rfl

/-- Each of the 4 PW words lies in one row of the table, its decoded operation's, whatever the operands (R71). -/
theorem pw_rows (w : PwWord) (thr : Byte) (d : Bit) :
    opcodeTable.filter (fun r => r.covers (.pw w thr d)) = [(decodePw w thr d).row] := by
  simp only [covers_pw_operands _ w thr d, decodePw_row_operands w thr d]
  revert w; decide

/-- Settles O5, by what the controller operation drives; the one row is the decoded operation's own. -/
theorem pwWordDecode : Obligations.PwWordDecode := by
  unfold Obligations.PwWordDecode
  refine ⟨fun s => ⟨fun d h => pwmOp_of_drive s d h, fun h hrun => ?_, fun h hrun => ?_⟩, fun w thr d => ?_⟩
  · simp [pwmOp_of_no_drive s h, hrun]
  · simp [pwmOp_of_no_drive s h, hrun]
  · rw [pw_rows, List.map_singleton]

end Sys2Proof.Machine
end

section
/-! PROOFS of 40_flag_layer.md: the flag-set operations (R93, R94, R96, R100), the flags' next-state equations (R95) and
the coalescing of events (R98). -/

namespace Sys2Proof.Machine

/-! ### The flag-set operations (R93, R94, R98) -/

@[simp] theorem flagNext_no_clear (set old : Bit) : flagNext set false old = (set || old) := by
  simp [flagNext]

@[simp] theorem flagNext_clear (set old : Bit) : flagNext set true old = set := by
  simp [flagNext]

theorem exec_setBtn (s : State) : exec .setBtn s = .next { s with btn_flag := s.inited || s.btn_flag } := by
  rw [← flagNext_no_clear]; rfl

theorem exec_setDir (s : State) : exec .setDir s = .next { s with dir_flag := s.inited || s.dir_flag } := by
  rw [← flagNext_no_clear]; rfl

theorem exec_noEvent (s : State) : exec .noEvent s = .next s := rfl

/-- A pending `btn_flag` absorbs a further set (R98). -/
theorem exec_setBtn_of_pending {s : State} (h : s.btn_flag = true) : exec .setBtn s = .next s := by
  rw [exec_setBtn, h, Bool.or_true, ← h]

/-- A pending `dir_flag` absorbs a further set (R98). -/
theorem exec_setDir_of_pending {s : State} (h : s.dir_flag = true) : exec .setDir s = .next s := by
  rw [exec_setDir, h, Bool.or_true, ← h]

/-! ### Which EV words select them (R70) -/

theorem setBtn_mem_decodeEv (w : EvWord) : .setBtn ∈ decodeEv w ↔ w[0] = true := by revert w; decide

theorem setDir_mem_decodeEv (w : EvWord) : .setDir ∈ decodeEv w ↔ w[1] = true := by revert w; decide

theorem noEvent_mem_decodeEv (w : EvWord) : .noEvent ∈ decodeEv w ↔ w = 0b00 := by revert w; decide

/-! ### A cycle without reset, stage by stage (R65) -/

/-- The state after the EV selection: each enabled edge has set its flag and nothing is cleared yet. -/
def afterEdges (s : State) : State :=
  { s with
    btn_flag := (s.inited && fallA s) || s.btn_flag
    dir_flag := (s.inited && fallB s) || s.dir_flag }

/-- The EV selection of a state performs exactly the sets of its edges. -/
theorem runOps_decodeEv (s : State) : runOps (decodeEv (evOf s)) s = .next (afterEdges s) := by
  rw [evOf, decodeEv_mkEv]
  cases ha : fallA s <;> cases hb : fallB s <;>
    simp [runOps, exec_setBtn, exec_setDir, exec_noEvent, afterEdges, ha, hb]

/-- Everything a cycle without reset does: the sets, then the controller and PWM driver operations of the start-of-cycle
state, then SYNC. -/
theorem cycle_stages {w : InWord} {s t : State} (hw : inRst w = false) (e : cycle w s = .next t) :
    ∃ u v, exec (ctlOp s) (afterEdges s) = .next u ∧ exec (pwmOp s) u = .next v ∧
      t = shiftSync (inBtnB w) (inBtnA w) v := by
  obtain ⟨u, hu⟩ := exec_answers (ctlOp s) (afterEdges s)
  obtain ⟨v, hv⟩ := exec_answers (pwmOp s) u
  rw [cycle, opsOf_of_no_reset s hw, runOps_append _ _ s _ (runOps_decodeEv s), runOps_cons _ _ _ u hu,
    runOps_cons _ _ _ v hv] at e
  cases e
  exact ⟨u, v, hu, hv, rfl⟩

/-- A controller operation writes a flag only where it clears it (R69), and then leaves this cycle's enabled edge. -/
theorem exec_controller_flags {i : Instr} {s t : State} (hi : i.format = .cw) (e : exec i s = .next t) :
    t.btn_flag = (if clrBtn i then s.inited && fallA s else s.btn_flag) ∧
    t.dir_flag = (if clrDir i then s.inited && fallB s else s.dir_flag) := by
  cases i with
  | initApply =>
    cases e
    exact ⟨flagNext_clear _ _, flagNext_clear _ _⟩
  | svcIdle => cases e; exact ⟨rfl, rfl⟩
  | svcDir =>
    cases e
    exact ⟨rfl, flagNext_clear _ _⟩
  | svcDuty =>
    cases e
    exact ⟨flagNext_clear _ _, rfl⟩
  | _ => cases hi

theorem exec_driver_keeps_flags {i : Instr} {s t : State} (hi : i.format = .pw) (e : exec i s = .next t) :
    t.btn_flag = s.btn_flag ∧ t.dir_flag = s.dir_flag := by
  cases i with
  | pwmApply thr d | pwmTick | pwmHold => cases e; exact ⟨rfl, rfl⟩
  | _ => cases hi

/-- Only RESET and SYNC write the synchronizers: what SYNC is about to shift is still the start-of-cycle value. -/
theorem exec_keeps_synchronizers {i : Instr} {s t : State} (hi : i.format ≠ .inp) (e : exec i s = .next t) :
    t.a_m = s.a_m ∧ t.a_s = s.a_s ∧ t.b_m = s.b_m ∧ t.b_s = s.b_s := by
  cases i with
  | reset b a | sync b a => exact absurd rfl hi
  | _ => cases e; exact ⟨rfl, rfl, rfl, rfl⟩

/-- Both chains after a cycle without reset have taken one sample (R91). -/
theorem cycle_synchronizers {w : InWord} {s t : State} (hw : inRst w = false) (e : cycle w s = .next t) :
    (t.a_m = inBtnA w ∧ t.a_s = s.a_m ∧ t.a_p = s.a_s) ∧ (t.b_m = inBtnB w ∧ t.b_s = s.b_m ∧ t.b_p = s.b_s) := by
  obtain ⟨u, v, hu, hv, rfl⟩ := cycle_stages hw e
  have hctl : (ctlOp s).format ≠ .inp := by simp [ctlOp_format]
  have hpwm : (pwmOp s).format ≠ .inp := by simp [pwmOp_format]
  obtain ⟨huam, huas, hubm, hubs⟩ := exec_keeps_synchronizers hctl hu
  obtain ⟨hvam, hvas, hvbm, hvbs⟩ := exec_keeps_synchronizers hpwm hv
  exact ⟨⟨rfl, hvam.trans huam, hvas.trans huas⟩, rfl, hvbm.trans hubm, hvbs.trans hubs⟩

/-! ### The flags' next-state equations (R95) -/

/-- R95: both flags after a cycle without reset. A clear meets the set of its own cycle in the model's `flagNext`, where
the set wins. -/
theorem cycle_flags {w : InWord} {s t : State} (hw : inRst w = false) (e : cycle w s = .next t) :
    t.btn_flag = ((s.inited && fallA s) || (s.btn_flag && !clrBtn (ctlOp s))) ∧
    t.dir_flag = ((s.inited && fallB s) || (s.dir_flag && !clrDir (ctlOp s))) := by
  obtain ⟨u, v, hu, hv, rfl⟩ := cycle_stages hw e
  obtain ⟨hub, hud⟩ := exec_controller_flags (ctlOp_format s) hu
  obtain ⟨hvb, hvd⟩ := exec_driver_keeps_flags (pwmOp_format s) hv
  rw [shiftSync_btn_flag, shiftSync_dir_flag, hvb, hvd, hub, hud]
  constructor
  · cases clrBtn (ctlOp s) <;> simp [afterEdges, fallA]
  · cases clrDir (ctlOp s) <;> simp [afterEdges, fallB]

theorem cycle_answers (w : InWord) (s : State) : ∃ t, cycle w s = .next t :=
  runOps_answers (opsOf w s) s

/-- Settles O21: the set wins because it is a disjunct of its own in each equation. -/
theorem flagEquations : Obligations.FlagEquations := by
  unfold Obligations.FlagEquations
  intro s w hw
  obtain ⟨t, ht⟩ := cycle_answers w s
  obtain ⟨hb, hd⟩ := cycle_flags hw ht
  refine ⟨t, ht, hb, hd, fun hi ha _ => ?_, fun hi hf _ => ?_⟩
  · simp [hb, hi, ha]
  · simp [hd, hi, hf]

/-- While `inited = 0` the controller operation is INIT_APPLY, which clears both flags. -/
theorem ctlOp_of_not_inited {s : State} (h : s.inited = false) : ctlOp s = .initApply := by
  rw [ctlOp_eq, if_pos h]

/-- With a falling edge on line A, `btn_flag` becomes 1 if the set is enabled and is cleared otherwise (R93, R97). -/
theorem cycle_btn_flag_of_fallA {w : InWord} {s t : State} (hw : inRst w = false) (e : cycle w s = .next t)
    (ha : fallA s = true) : t.btn_flag = s.inited := by
  rw [(cycle_flags hw e).1, ha]
  cases hi : s.inited with
  | true => rfl
  | false => simp [ctlOp_of_not_inited hi, clrBtn]

/-- A pending toggle is served at once, so after any cycle `dir_flag` is that cycle's enabled edge of line B. -/
theorem cycle_dir_flag {w : InWord} {s t : State} (hw : inRst w = false) (e : cycle w s = .next t) :
    t.dir_flag = (s.inited && fallB s) := by
  have served : s.dir_flag = true → clrDir (ctlOp s) = true := by
    intro hd
    rw [ctlOp_eq, if_pos hd]
    split_ifs <;> rfl
  rw [(cycle_flags hw e).2]
  cases hd : s.dir_flag with
  | true => simp [served hd]
  | false => simp

/-! ### SET_BTN, SET_DIR and NO_EVENT (R93, R94, R96) -/

/-- Settles O18: the meaning, the EV bit, and R95's equation at an edge of line A. -/
theorem setBtnEffect : Obligations.SetBtnEffect := by
  unfold Obligations.SetBtnEffect
  refine ⟨exec_setBtn, setBtn_mem_decodeEv, fun s w hw ha => ?_⟩
  obtain ⟨t, ht⟩ := cycle_answers w s
  exact ⟨t, ht, cycle_btn_flag_of_fallA hw ht ha⟩

/-- After any cycle a pending toggle was set by an edge of that cycle, and SYNC has shifted the low level of that edge into
`b_p`. -/
theorem cycle_dir_flag_b_p {w : InWord} {s t : State} (e : cycle w s = .next t) (hd : t.dir_flag = true) :
    t.b_p = false := by
  cases hw : inRst w with
  | true =>
    rw [cycle, opsOf_of_reset s hw] at e
    cases e
    cases hd
  | false =>
    rw [cycle_dir_flag hw e, Bool.and_eq_true] at hd
    have hfall : fallB s = true := hd.2
    simp only [fallB, Bool.and_eq_true, Bool.not_eq_true'] at hfall
    obtain ⟨_, _, _, hshift⟩ := cycle_synchronizers hw e
    exact hshift.trans hfall.2

theorem reachable_dir_flag_b_p {s : State} (h : Reachable s) : s.dir_flag = true → s.b_p = false := by
  induction h with
  | reset b a s hwf => exact fun hd => nomatch hd
  | cycle w _ e _ => exact cycle_dir_flag_b_p e
  | script ws n _ ih => exact ih

theorem dir_flag_of_ctlOp_svcDir {s : State} (h : ctlOp s = .svcDir) : s.dir_flag = true := by
  rw [ctlOp_eq] at h
  split_ifs at h with _ hd
  exact hd

/-- Settles O19: as SET_BTN for line B; SVC_DIR runs only with a toggle pending, when line B's older level is low. -/
theorem setDirEffect : Obligations.SetDirEffect := by
  unfold Obligations.SetDirEffect
  refine ⟨exec_setDir, setDir_mem_decodeEv, fun s w hw hb => ?_, fun s hs hctl => ?_⟩
  · obtain ⟨t, ht⟩ := cycle_answers w s
    exact ⟨t, ht, by rw [cycle_dir_flag hw ht, hb, Bool.and_true]⟩
  · have hlow := reachable_dir_flag_b_p hs (dir_flag_of_ctlOp_svcDir hctl)
    simp [fallB, hlow]

/-- Settles O20: without an edge only the clears are left of R95's equations. -/
theorem noEventEffect : Obligations.NoEventEffect := by
  unfold Obligations.NoEventEffect
  refine ⟨exec_noEvent, noEvent_mem_decodeEv, fun s w hw ha hb => ?_⟩
  obtain ⟨t, ht⟩ := cycle_answers w s
  obtain ⟨hbtn, hdir⟩ := cycle_flags hw ht
  exact ⟨t, ht, by simpa [ha] using hbtn, by simpa [hb] using hdir⟩

/-! ### What a flag set reads and writes (R100) -/

theorem exec_setBtn_next_iff {s t : State} :
    exec .setBtn s = .next t ↔ t = { s with btn_flag := s.inited || s.btn_flag } := by
  rw [exec_setBtn, Host.Outcome.next.injEq, eq_comm]

theorem exec_setDir_next_iff {s t : State} :
    exec .setDir s = .next t ↔ t = { s with dir_flag := s.inited || s.dir_flag } := by
  rw [exec_setDir, Host.Outcome.next.injEq, eq_comm]

/-- The CW word reads three control registers, and the PW word and its operands no synchronizer register either. -/
theorem ctlOp_pwmOp_ignore_synchronizers (s : State) (am as ap bm bs bp : Bit) :
    ctlOp { s with a_m := am, a_s := as, a_p := ap, b_m := bm, b_s := bs, b_p := bp } = ctlOp s ∧
    pwmOp { s with a_m := am, a_s := as, a_p := ap, b_m := bm, b_s := bs, b_p := bp } = pwmOp s :=
  ⟨rfl, rfl⟩

/-- Settles O22: the meanings of the two sets as state updates, and the registers that the selection does not read. -/
theorem flagSetTouchesOnlyItsFlag : Obligations.FlagSetTouchesOnlyItsFlag := by
  unfold Obligations.FlagSetTouchesOnlyItsFlag
  simp only [exec_setBtn_next_iff, exec_setDir_next_iff]
  refine ⟨?_, ?_, ?_, ?_, ctlOp_pwmOp_ignore_synchronizers⟩
  · rintro s _ rfl; rfl
  · rintro s _ rfl; rfl
  · rintro s s' _ _ hinited hbtn rfl rfl
    exact congrArg₂ or hinited hbtn
  · rintro s s' _ _ hinited hdir rfl rfl
    exact congrArg₂ or hinited hdir

/-! ### Coalescing at the transaction level (R98, R103) -/

theorem txRun_append (ms ms' : List Move) (x : TxState) : txRun (ms ++ ms') x = txRun ms' (txRun ms x) := by
  induction ms generalizing x with
  | nil => rfl
  | cons m ms ih => exact ih (txMove m x)

theorem txEdgeA_of_inited {x : TxState} (h : x.inited = true) : txEdgeA x = { x with btn_flag := true } := by
  rw [txEdgeA, if_pos h]

theorem txEdgeB_of_inited {x : TxState} (h : x.inited = true) : txEdgeB x = { x with dir_flag := true } := by
  rw [txEdgeB, if_pos h]

/-- A move that a second time changes nothing: one or more of it are one. -/
theorem txRun_replicate_of_absorbed {m : Move} {x : TxState} (h : txMove m (txMove m x) = txMove m x) (n : Nat) :
    txRun (List.replicate (n + 1) m) x = txMove m x := by
  induction n with
  | zero => rfl
  | succ n ih =>
    calc txRun (List.replicate (n + 2) m) x
        = txRun (List.replicate n m) (txMove m (txMove m x)) := rfl
      _ = txRun (List.replicate n m) (txMove m x) := by rw [h]
      _ = txMove m x := ih

theorem txRun_edgesA {x : TxState} (h : x.inited = true) (n : Nat) :
    txRun (List.replicate (n + 1) .edgeA) x = { x with btn_flag := true } := by
  have hone : txMove .edgeA x = { x with btn_flag := true } := txEdgeA_of_inited h
  have habsorbed : txMove .edgeA { x with btn_flag := true } = { x with btn_flag := true } := txEdgeA_of_inited h
  rw [txRun_replicate_of_absorbed (by rw [hone, habsorbed]), hone]

theorem txRun_edgesB {x : TxState} (h : x.inited = true) (n : Nat) :
    txRun (List.replicate (n + 1) .edgeB) x = { x with dir_flag := true } := by
  have hone : txMove .edgeB x = { x with dir_flag := true } := txEdgeB_of_inited h
  have habsorbed : txMove .edgeB { x with dir_flag := true } = { x with dir_flag := true } := txEdgeB_of_inited h
  rw [txRun_replicate_of_absorbed (by rw [hone, habsorbed]), hone]

/-- A service of a pending duty step alone is one duty step (R117). -/
theorem txService_of_btn {x : TxState} (hi : x.inited = true) (hd : x.dir_flag = false) (hb : x.btn_flag = true) :
    txService x = txApplyNext x := by
  simp [txService, hi, hd, hb]

/-- A service of a pending toggle inverts the direction (R117). -/
theorem txService_dir_of_dir {x : TxState} (hi : x.inited = true) (hd : x.dir_flag = true) :
    (txService x).dir = !x.dir := by
  simp [txService, hi, hd]

theorem edgesA_then_service {x : TxState} (hi : x.inited = true) (hd : x.dir_flag = false) (n : Nat) :
    txRun (List.replicate (n + 1) .edgeA ++ [.service]) x = txApplyNext x := by
  rw [txRun_append, txRun_edgesA hi]
  calc txService { x with btn_flag := true }
      = txApplyNext { x with btn_flag := true } := txService_of_btn hi hd rfl
    _ = txApplyNext x := rfl

theorem edgesB_then_service {x : TxState} (hi : x.inited = true) (n : Nat) :
    txRun (List.replicate (n + 1) .edgeB ++ [.service]) x = txService { x with dir_flag := true } := by
  rw [txRun_append, txRun_edgesB hi]
  rfl

/-- Settles O23: any number of edges leave the state that one leaves, and the service then sees one pending event. -/
theorem coalescingIsOneService : Obligations.CoalescingIsOneService := by
  unfold Obligations.CoalescingIsOneService
  refine ⟨fun n x hi hd => ⟨edgesA_then_service hi hd n, rfl, rfl, rfl⟩, fun n x hi => ?_,
    fun _ => exec_setBtn_of_pending, fun _ => exec_setDir_of_pending⟩
  have hone : txRun [.edgeB, .service] x = txService { x with dir_flag := true } := edgesB_then_service hi 0
  rw [edgesB_then_service hi n, hone]
  exact ⟨rfl, txService_dir_of_dir hi rfl⟩

end Sys2Proof.Machine
end

section
/-! PROOFS of 41_controller.md: what a cycle does at the transaction level (R117), what a run counts, and the controller
operations INIT_APPLY, SVC_IDLE, SVC_DIR and SVC_DUTY (R111 to R114). -/

namespace Sys2Proof.Machine

/-! ### The controller operations (R111 to R114) -/

/-- With `inited = 0` no edge is enabled, so both clears leave 0. -/
theorem exec_initApply {s : State} (h : s.inited = false) :
    exec .initApply s = .next
      { s with
        last_index := s.next_index, next_index := s.next_index + 1, inited := true, btn_flag := false,
        dir_flag := false, pwm_thr := memRead s.mem s.next_index, pwm_chan := s.dir, pwm_run := true } := by
  have hclear (fall old : Bit) : flagNext (s.inited && fall) true old = false := by simp [h]
  simp only [exec, execInitApply, loadPwm, advanceCursor, clearDirFlag, clearBtnFlag, hclear]

theorem exec_svcIdle (s : State) : exec .svcIdle s = .next s := rfl

theorem exec_svcDir (s : State) :
    exec .svcDir s = .next
      { s with
        dir := !s.dir, dir_flag := s.inited && fallB s,
        pwm_thr := memRead s.mem s.last_index, pwm_chan := !s.dir, pwm_run := true } := by
  rw [← flagNext_clear (s.inited && fallB s) s.dir_flag]; rfl

theorem exec_svcDuty (s : State) :
    exec .svcDuty s = .next
      { s with
        last_index := s.next_index, next_index := s.next_index + 1, btn_flag := s.inited && fallA s,
        pwm_thr := memRead s.mem s.next_index, pwm_chan := s.dir, pwm_run := true } := by
  rw [← flagNext_clear (s.inited && fallA s) s.btn_flag]; rfl

/-! ### Which states select them (R67) -/

theorem ctlOp_eq_initApply_iff (s : State) : ctlOp s = .initApply ↔ s.inited = false := by
  rw [ctlOp_eq]
  split_ifs with hi <;> simp [hi]

theorem ctlOp_eq_svcIdle_iff (s : State) :
    ctlOp s = .svcIdle ↔ s.inited = true ∧ s.dir_flag = false ∧ s.btn_flag = false := by
  rw [ctlOp_eq]
  split_ifs with hi hd hb <;> simp_all

theorem ctlOp_eq_svcDir_iff (s : State) : ctlOp s = .svcDir ↔ s.inited = true ∧ s.dir_flag = true := by
  rw [ctlOp_eq]
  split_ifs with hi hd <;> simp_all

theorem ctlOp_eq_svcDuty_iff (s : State) :
    ctlOp s = .svcDuty ↔ s.inited = true ∧ s.dir_flag = false ∧ s.btn_flag = true := by
  rw [ctlOp_eq]
  split_ifs with hi hd hb <;> simp_all

/-! ### A cycle is one service (R117) -/

theorem txService_of_not_inited {x : TxState} (hi : x.inited = false) :
    txService x = { txApplyNext x with inited := true, dir_flag := false } := by
  simp [txService, hi]

theorem txService_of_dir {x : TxState} (hi : x.inited = true) (hd : x.dir_flag = true) :
    txService x =
      { x with
        dir := !x.dir, dir_flag := false
        pwm_thr := memRead x.mem x.last_index, pwm_chan := !x.dir, pwm_run := true } := by
  simp [txService, hi, hd]

theorem txService_of_idle {x : TxState} (hi : x.inited = true) (hd : x.dir_flag = false) (hb : x.btn_flag = false) :
    txService x = x := by
  simp [txService, hi, hd, hb]

@[simp] theorem txService_inited (x : TxState) : (txService x).inited = true := by
  unfold txService
  split_ifs with hi <;> simp_all [txApplyNext]

@[simp] theorem txService_mem (x : TxState) : (txService x).mem = x.mem := by
  unfold txService
  split_ifs <;> rfl

/-- PWM_TICK and PWM_HOLD write nothing but the counter. -/
theorem txOf_exec_tick_or_hold {run : Bit} {s t : State}
    (e : exec (if run then .pwmTick else .pwmHold) s = .next t) : txOf t = txOf s := by
  cases run <;> cases e <;> rfl

/-- A controller operation performs its own PWM_APPLY, with the operands that it drives (R69). -/
theorem exec_loads_drive {i : Instr} {s t : State} {d : Drive} (hd : applyDrive i s = some d)
    (e : exec i s = .next t) : t.pwm_thr = d.thr ∧ t.pwm_chan = d.dir ∧ t.pwm_run = true := by
  cases i with
  | initApply | svcDir | svcDuty => cases hd; cases e; exact ⟨rfl, rfl, rfl⟩
  | _ => cases hd

/-- Loading what is loaded changes nothing (R135). -/
theorem loadPwm_of_loaded {s : State} {thr : Byte} {d : Bit}
    (h : s.pwm_thr = thr ∧ s.pwm_chan = d ∧ s.pwm_run = true) : loadPwm thr d s = s := by
  obtain ⟨rfl, rfl, hrun⟩ := h
  rw [loadPwm, ← hrun]

/-- Behind its cycle's controller operation the PWM driver operation writes nothing but the counter. -/
theorem txOf_exec_pwmOp {s u v : State} (hu : exec (ctlOp s) (afterEdges s) = .next u)
    (hv : exec (pwmOp s) u = .next v) : txOf v = txOf u := by
  cases hd : applyDrive (ctlOp s) s with
  | none =>
    rw [pwmOp_of_no_drive s hd] at hv
    exact txOf_exec_tick_or_hold hv
  | some d =>
    rw [pwmOp_of_drive s d hd] at hv
    cases hv
    rw [loadPwm_of_loaded (exec_loads_drive (s := afterEdges s) hd hu)]

/-- The controller operation that a state selects is the transaction level's `Service`, up to the flags. -/
theorem txOf_exec_ctlOp {s u : State} (hu : exec (ctlOp s) (afterEdges s) = .next u) :
    txOf u = { txService (txOf s) with btn_flag := u.btn_flag, dir_flag := u.dir_flag } := by
  cases hi : s.inited with
  | false =>
    rw [(ctlOp_eq_initApply_iff s).2 hi] at hu
    cases hu
    rw [txService_of_not_inited hi]; rfl
  | true =>
    cases hd : s.dir_flag with
    | true =>
      rw [(ctlOp_eq_svcDir_iff s).2 ⟨hi, hd⟩] at hu
      cases hu
      rw [txService_of_dir hi hd]; rfl
    | false =>
      cases hb : s.btn_flag with
      | true =>
        rw [(ctlOp_eq_svcDuty_iff s).2 ⟨hi, hd, hb⟩] at hu
        cases hu
        rw [txService_of_btn hi hd hb]; rfl
      | false =>
        rw [(ctlOp_eq_svcIdle_iff s).2 ⟨hi, hd, hb⟩] at hu
        cases hu
        rw [txService_of_idle hi hd hb]; rfl

/-- What a cycle without reset does to everything but the flags, the counter and the synchronizers is one `Service`; the
flags follow R95 (`cycle_flags`). -/
theorem txOf_cycle {w : InWord} {s t : State} (hw : inRst w = false) (e : cycle w s = .next t) :
    txOf t = { txService (txOf s) with btn_flag := t.btn_flag, dir_flag := t.dir_flag } := by
  obtain ⟨u, v, hu, hv, rfl⟩ := cycle_stages hw e
  have hdriver := txOf_exec_pwmOp hu hv
  have hb : v.btn_flag = u.btn_flag := congrArg TxState.btn_flag hdriver
  have hd : v.dir_flag = u.dir_flag := congrArg TxState.dir_flag hdriver
  calc txOf (shiftSync (inBtnB w) (inBtnA w) v)
      = txOf u := hdriver
    _ = { txService (txOf s) with btn_flag := u.btn_flag, dir_flag := u.dir_flag } := txOf_exec_ctlOp hu
    _ = { txService (txOf s) with btn_flag := v.btn_flag, dir_flag := v.dir_flag } := by rw [hb, hd]

theorem cycle_inited {w : InWord} {s t : State} (hw : inRst w = false) (e : cycle w s = .next t) :
    t.inited = true :=
  (congrArg TxState.inited (txOf_cycle hw e)).trans (txService_inited _)

theorem cycle_mem {w : InWord} {s t : State} (hw : inRst w = false) (e : cycle w s = .next t) : t.mem = s.mem :=
  (congrArg TxState.mem (txOf_cycle hw e)).trans (txService_mem _)

/-! ### A service of a running state -/

/-- R37's part of a running state that the transaction level sees: all of it but the counter's bound. -/
abbrev TxRunningInv (x : TxState) : Prop :=
  x.next_index = x.last_index + 1 ∧ x.pwm_thr = memRead x.mem x.last_index ∧ x.pwm_chan = x.dir ∧ x.pwm_run = true

theorem runningInv_iff (s : State) : RunningInv s ↔ TxRunningInv (txOf s) ∧ s.pwm_cnt.toNat < Config.maxCount := by
  simp only [RunningInv, TxRunningInv, txOf, and_assoc]

/-- A service of a running state is a toggle, else a duty step, else nothing (R67, R117). -/
theorem txService_running_cases {x : TxState} (hi : x.inited = true) :
    (x.dir_flag = true ∧ txService x =
      { x with
        dir := !x.dir, dir_flag := false
        pwm_thr := memRead x.mem x.last_index, pwm_chan := !x.dir, pwm_run := true }) ∨
    (x.dir_flag = false ∧ x.btn_flag = true ∧ txService x = txApplyNext x) ∨
    (x.dir_flag = false ∧ x.btn_flag = false ∧ txService x = x) := by
  cases hd : x.dir_flag with
  | true => exact .inl ⟨rfl, txService_of_dir hi hd⟩
  | false =>
    cases hb : x.btn_flag with
    | true => exact .inr (.inl ⟨rfl, rfl, txService_of_btn hi hd hb⟩)
    | false => exact .inr (.inr ⟨rfl, rfl, txService_of_idle hi hd hb⟩)

theorem txService_keeps_running {x : TxState} (hi : x.inited = true) (h : TxRunningInv x) :
    TxRunningInv (txService x) := by
  obtain ⟨_, e⟩ | ⟨_, _, e⟩ | ⟨_, _, e⟩ := txService_running_cases hi
  · rw [e]; exact ⟨h.1, rfl, rfl, rfl⟩
  · rw [e]; exact ⟨rfl, rfl, rfl, rfl⟩
  · rw [e]; exact h

theorem txService_dir {x : TxState} (hi : x.inited = true) : (txService x).dir = (x.dir ^^ x.dir_flag) := by
  obtain ⟨hd, e⟩ | ⟨hd, _, e⟩ | ⟨hd, _, e⟩ := txService_running_cases hi <;> simp [e, hd, txApplyNext]

theorem txService_last_index {x : TxState} (hi : x.inited = true) (h : TxRunningInv x) :
    (txService x).last_index = x.last_index + if x.dir_flag = false ∧ x.btn_flag = true then 1 else 0 := by
  obtain ⟨hd, e⟩ | ⟨hd, hb, e⟩ | ⟨hd, hb, e⟩ := txService_running_cases hi
  · simp [e, hd]
  · simpa [e, hd, hb, txApplyNext] using h.1
  · simp [e, hd, hb]

/-! ### A cycle of a running state -/

theorem exec_keeps_pwm_cnt_lt {i : Instr} {s t : State} (e : exec i s = .next t)
    (h : s.pwm_cnt.toNat < Config.maxCount) : t.pwm_cnt.toNat < Config.maxCount := by
  cases i with
  | reset b a => cases e; exact Nat.zero_lt_succ _
  | pwmTick => cases e; exact nextCount_lt _
  | _ => cases e; exact h

theorem cycle_keeps_runningInv {w : InWord} {s t : State} (hi : s.inited = true) (h : RunningInv s)
    (hw : inRst w = false) (e : cycle w s = .next t) : RunningInv t := by
  rw [runningInv_iff] at h ⊢
  obtain ⟨hrun, hcnt⟩ := h
  refine ⟨?_, runOps_keeps (fun _ _ _ _ => exec_keeps_pwm_cnt_lt) e hcnt⟩
  rw [txOf_cycle hw e]
  exact txService_keeps_running hi hrun

/-- A cycle without reset performs its controller operation once and no other. -/
theorem count_controller_opsOf {i : Instr} (hi : i.format = .cw) {w : InWord} (s : State) (hw : inRst w = false) :
    (opsOf w s).count i = if ctlOp s = i then 1 else 0 := by
  have hev : (decodeEv (evOf s)).count i = 0 :=
    List.count_eq_zero.2 fun hmem => by simp [format_of_mem_decodeEv hmem] at hi
  have hpw : pwmOp s ≠ i := fun h => by simp [← h, pwmOp_format] at hi
  have hin : Instr.sync (inBtnB w) (inBtnA w) ≠ i := fun h => by simp [← h, Instr.format] at hi
  simp [opsOf_of_no_reset s hw, List.count_append, List.count_cons, hev, hpw, hin]

/-- The direction flips once per SVC_DIR. -/
theorem cycle_dir {w : InWord} {s t : State} (hi : s.inited = true) (hw : inRst w = false) (e : cycle w s = .next t) :
    t.dir = (s.dir ^^ decide ((opsOf w s).count .svcDir % 2 = 1)) := by
  have hdir : t.dir = (s.dir ^^ s.dir_flag) := (congrArg TxState.dir (txOf_cycle hw e)).trans (txService_dir hi)
  rw [hdir, count_controller_opsOf rfl s hw]
  cases hd : s.dir_flag <;> simp [ctlOp_eq_svcDir_iff, hi, hd]

/-- The cursor advances once per SVC_DUTY. -/
theorem cycle_last_index {w : InWord} {s t : State} (hi : s.inited = true) (h : RunningInv s) (hw : inRst w = false)
    (e : cycle w s = .next t) : t.last_index = s.last_index + BitVec.ofNat 2 ((opsOf w s).count .svcDuty) := by
  have hlast : t.last_index = s.last_index + if s.dir_flag = false ∧ s.btn_flag = true then 1 else 0 :=
    (congrArg TxState.last_index (txOf_cycle hw e)).trans (txService_last_index hi ((runningInv_iff s).1 h).1)
  have hsel : ctlOp s = .svcDuty ↔ s.dir_flag = false ∧ s.btn_flag = true := by simp [ctlOp_eq_svcDuty_iff, hi]
  rw [hlast, count_controller_opsOf rfl s hw]
  by_cases hduty : s.dir_flag = false ∧ s.btn_flag = true
  · rw [if_pos hduty, if_pos (hsel.2 hduty)]; rfl
  · rw [if_neg hduty, if_neg (mt hsel.1 hduty)]; rfl

/-! ### Runs of cycles -/

theorem runWords_cons {w : InWord} (ws : List InWord) {s u : State} (e : cycle w s = .next u) :
    runWords (w :: ws) s = runWords ws u := by
  simp [runWords, e]

theorem opsDone_cons {w : InWord} (ws : List InWord) {s u : State} (e : cycle w s = .next u) :
    opsDone (w :: ws) s = opsOf w s ++ opsDone ws u := by
  simp [opsDone, e]

theorem decide_add_odd (m n : Nat) :
    decide ((m + n) % 2 = 1) = (decide (m % 2 = 1) ^^ decide (n % 2 = 1)) := by
  rw [Bool.eq_iff_iff]
  simp only [decide_eq_true_eq, bne_iff_ne, ne_eq, decide_eq_decide]
  omega

/-- Over any cycles without reset a running state keeps R37 and its table, its cursor advances once per SVC_DUTY and its
direction flips once per SVC_DIR. -/
theorem runWords_counts_services {ws : List InWord} {s t : State} (hi : s.inited = true) (h : RunningInv s)
    (hws : NoReset ws) (e : runWords ws s = .next t) :
    RunningInv t ∧ t.mem = s.mem ∧
      t.last_index = s.last_index + BitVec.ofNat 2 ((opsDone ws s).count .svcDuty) ∧
      t.dir = (s.dir ^^ decide ((opsDone ws s).count .svcDir % 2 = 1)) := by
  induction ws generalizing s with
  | nil => cases e; exact ⟨h, rfl, by simp [opsDone], by simp [opsDone]⟩
  | cons w ws ih =>
    obtain ⟨hw, hrest⟩ := List.forall_mem_cons.1 hws
    obtain ⟨u, hu⟩ := cycle_answers w s
    rw [runWords_cons ws hu] at e
    obtain ⟨hrun, hmem, hlast, hdir⟩ := ih (cycle_inited hw hu) (cycle_keeps_runningInv hi h hw hu) hrest e
    rw [opsDone_cons ws hu, List.count_append, List.count_append]
    refine ⟨hrun, hmem.trans (cycle_mem hw hu), ?_, ?_⟩
    · rw [hlast, cycle_last_index hi h hw hu, BitVec.ofNat_add, add_assoc]
    · rw [hdir, cycle_dir hi hw hu, decide_add_odd, Bool.xor_assoc]

/-- R113(d): over any cycles that perform exactly two SVC_DIR. -/
theorem two_svcDir_restore {ws : List InWord} {s t : State} (hi : s.inited = true) (h : RunningInv s)
    (hws : NoReset ws) (e : runWords ws s = .next t) (htwo : (opsDone ws s).count .svcDir = 2) :
    t.dir = s.dir ∧ t.pwm_chan = s.pwm_chan ∧ ((opsDone ws s).count .svcDuty = 0 → t.pwm_thr = s.pwm_thr) := by
  obtain ⟨⟨_, hthr', hchan', _⟩, hmem, hlast, hdir⟩ := runWords_counts_services hi h hws e
  obtain ⟨_, hthr, hchan, _⟩ := h
  have hsame : t.dir = s.dir := by simpa [htwo] using hdir
  refine ⟨hsame, by rw [hchan', hchan, hsame], fun hnone => ?_⟩
  have hentry : t.last_index = s.last_index := by simpa [hnone] using hlast
  rw [hthr', hthr, hmem, hentry]

/-! ### INIT_APPLY (R111) -/

/-- Settles O28: at a reset state the applied entry is the default table's entry 0. -/
theorem initApplyEffect : Obligations.InitApplyEffect := by
  unfold Obligations.InitApplyEffect
  have hentry : memRead [] 0 = 0 := (memRead_nil 0).trans defaultThresh_values.1
  exact ⟨fun _ => exec_initApply, ctlOp_eq_initApply_iff,
    fun b a => ⟨_, exec_initApply rfl, rfl, rfl, rfl, hentry, rfl, rfl⟩, fun _ _ _ => cycle_inited⟩

/-! ### SVC_IDLE (R112) -/

/-- A service without a pending event leaves the transaction level as it was, and R95 then holds only the edges. -/
theorem txOf_cycle_of_svcIdle {w : InWord} {s t : State} (hw : inRst w = false) (hctl : ctlOp s = .svcIdle)
    (e : cycle w s = .next t) : txOf t = { txOf s with btn_flag := fallA s, dir_flag := fallB s } := by
  obtain ⟨hi, hd, hb⟩ := (ctlOp_eq_svcIdle_iff s).1 hctl
  obtain ⟨hbtn, hdir⟩ := cycle_flags hw e
  rw [txOf_cycle hw e, txService_of_idle hi hd hb, hbtn, hdir]
  simp [hi, hd, hb]

theorem exec_keeps_pwm_run_of_inited {i : Instr} {s t : State} (e : exec i s = .next t)
    (h : s.inited = true → s.pwm_run = true) : t.inited = true → t.pwm_run = true := by
  intro ht
  cases i with
  | reset b a => cases e; cases ht
  | initApply | svcDir | svcDuty | pwmApply thr d => cases e; rfl
  | _ => cases e; exact h ht

/-- INIT_APPLY starts the PWM clock, and only a reset stops it (R31). -/
theorem reachable_pwm_run_of_inited {s : State} (h : Reachable s) : s.inited = true → s.pwm_run = true := by
  induction h with
  | reset b a s hwf => exact fun hi => nomatch hi
  | cycle w _ e ih => exact runOps_keeps (fun _ _ _ _ => exec_keeps_pwm_run_of_inited) e ih
  | script ws n _ ih => exact ih

theorem pwmOp_of_svcIdle {s : State} (hs : Reachable s) (hctl : ctlOp s = .svcIdle) : pwmOp s = .pwmTick := by
  have hrun := reachable_pwm_run_of_inited hs ((ctlOp_eq_svcIdle_iff s).1 hctl).1
  rw [pwmOp_of_no_drive s (by rw [hctl, applyDrive_svcIdle]), if_pos hrun]

/-- Settles O29: an idle service changes the transaction level's state in its flags only. -/
theorem svcIdleEffect : Obligations.SvcIdleEffect := by
  unfold Obligations.SvcIdleEffect
  refine ⟨exec_svcIdle, ctlOp_eq_svcIdle_iff, fun s w hw hctl => ?_, fun _ => pwmOp_of_svcIdle⟩
  obtain ⟨t, ht⟩ := cycle_answers w s
  have htx := txOf_cycle_of_svcIdle hw hctl ht
  simp only [txOf, TxState.mk.injEq] at htx
  obtain ⟨_, hnext, hlast, hdir, hbtn, hdirFlag, hthr, hchan, hrun, _⟩ := htx
  exact ⟨t, ht, hnext, hlast, hdir, hthr, hchan, hrun, hbtn, hdirFlag⟩

/-! ### SVC_DIR (R113) -/

/-- In a run from reset the toggle's own cycle sees no new edge of line B, so a duty step pending beside it is next. -/
theorem svcDuty_after_svcDir {w : InWord} {s t : State} (hs : Reachable s) (hw : inRst w = false)
    (hctl : ctlOp s = .svcDir) (hb : s.btn_flag = true) (e : cycle w s = .next t) : ctlOp t = .svcDuty := by
  have hlow : s.b_p = false := reachable_dir_flag_b_p hs ((ctlOp_eq_svcDir_iff s).1 hctl).2
  have hdir : t.dir_flag = false := by simp [cycle_dir_flag hw e, fallB, hlow]
  have hbtn : t.btn_flag = true := cycle_keeps_btn_flag hw (by rw [hctl]; rfl) e hb
  exact (ctlOp_eq_svcDuty_iff t).2 ⟨cycle_inited hw e, hdir, hbtn⟩

/-- Where R37 holds the entry at `last_index` is already the threshold. -/
theorem exec_svcDir_keeps_pwm_thr {s t : State} (h : RunningInv s) (e : exec .svcDir s = .next t) :
    t.pwm_thr = s.pwm_thr := by
  obtain ⟨_, hthr, _⟩ := h
  rw [exec_svcDir] at e
  cases e
  exact hthr.symm

theorem svcDir_twice_restores {s t : State} (h : RunningInv s) (e : runOps [.svcDir, .svcDir] s = .next t) :
    t.dir = s.dir ∧ t.pwm_chan = s.pwm_chan := by
  obtain ⟨_, _, hchan, _⟩ := h
  rw [runOps_cons _ _ _ _ (exec_svcDir s), runOps_cons _ _ _ _ (exec_svcDir _)] at e
  cases e
  exact ⟨Bool.not_not _, (Bool.not_not _).trans hchan.symm⟩

/-- Settles O30; its last clause counts the SVC_DIR of a run by an induction over the words. -/
theorem svcDirEffect : Obligations.SvcDirEffect := by
  unfold Obligations.SvcDirEffect
  exact ⟨exec_svcDir, ctlOp_eq_svcDir_iff, fun _ _ _ => svcDuty_after_svcDir, fun _ _ => exec_svcDir_keeps_pwm_thr,
    fun _ _ => svcDir_twice_restores, fun _ _ _ => two_svcDir_restore⟩

/-! ### SVC_DUTY (R114) -/

theorem outputs_low_of_pwm_thr_zero {s : State} (h : s.pwm_thr = 0) : pwmA s = false ∧ pwmB s = false := by
  simp [pwmA, pwmB, pwmMatch, h]

/-- Settles O31: with the default table the entry at index 3 is 223, and the entry 0 at index 0 matches no count. -/
theorem svcDutyEffect : Obligations.SvcDutyEffect := by
  unfold Obligations.SvcDutyEffect
  obtain ⟨hentry0, _, _, hentry3⟩ := defaultThresh_values
  refine ⟨exec_svcDuty, ctlOp_eq_svcDuty_iff, fun s hmem hnext => ?_, fun s hmem hnext => ?_⟩
  · refine ⟨_, exec_svcDuty s, ?_, ?_⟩
    · simp only [hmem, hnext, memRead_nil, hentry3]
    · simp only [hnext]; rfl
  · have hzero : memRead s.mem s.next_index = 0 := by rw [hmem, hnext, memRead_nil, hentry0]
    refine ⟨_, exec_svcDuty s, ?_⟩
    rw [← and_assoc]
    exact ⟨outputs_low_of_pwm_thr_zero hzero, rfl⟩

end Sys2Proof.Machine
end

section
/-! PROOFS of 42_pwm_driver.md: the driver operations PWM_APPLY and PWM_TICK (R131, R132) and the outputs (R140, R141). -/

namespace Sys2Proof.Machine

/-! ### The driver operations (R131, R132) -/

theorem exec_pwmApply (thr : Byte) (d : Bit) (s : State) :
    exec (.pwmApply thr d) s = .next { s with pwm_thr := thr, pwm_chan := d, pwm_run := true } := rfl

theorem exec_pwmTick (s : State) :
    exec .pwmTick s = .next { s with pwm_cnt := if s.pwm_cnt.toNat ≥ 254 then 0 else s.pwm_cnt + 1 } := rfl

/-- Of the operations of a cycle without reset, PWM_TICK alone writes the counter (R20). -/
theorem exec_keeps_pwm_cnt {i : Instr} {s t : State} (hreset : i.isReset = false) (htick : i ≠ .pwmTick)
    (e : exec i s = .next t) : t.pwm_cnt = s.pwm_cnt := by
  cases i with
  | reset b a => cases hreset
  | pwmTick => exact absurd rfl htick
  | _ => cases e; rfl

/-! ### Which PW words select them (R71) -/

theorem decodePw_eq_pwmApply_iff (w : PwWord) (thr : Byte) (d : Bit) :
    decodePw w thr d = .pwmApply thr d ↔ w[1] = true := by
  unfold decodePw
  split_ifs with happly <;> simp [happly]

theorem decodePw_eq_pwmTick_iff (w : PwWord) (thr : Byte) (d : Bit) : decodePw w thr d = .pwmTick ↔ w = 0b01 := by
  have bits : w = 0b01 ↔ w[1] = false ∧ w[0] = true := by revert w; decide
  rw [bits]
  unfold decodePw
  split_ifs with happly hrun
  · simp [happly]
  · simp [happly, hrun]
  · simp [hrun]

/-- A cycle without reset performs no other PWM driver operation than the one that its PW word selects (R65). -/
theorem driver_mem_opsOf_iff {i : Instr} (hi : i.format = .pw) {w : InWord} (s : State) (hw : inRst w = false) :
    i ∈ opsOf w s ↔ i = pwmOp s := by
  have hev : i ∉ decodeEv (evOf s) := fun h => by simp [format_of_mem_decodeEv h] at hi
  have hctl : i ≠ ctlOp s := fun h => by simp [h, ctlOp_format] at hi
  have hin : i ≠ .sync (inBtnB w) (inBtnA w) := fun h => by simp [h, Instr.format] at hi
  simp [opsOf_of_no_reset s hw, hev, hctl, hin]

/-! ### PWM_APPLY (R131) -/

/-- The controller operation before an apply and the SYNC behind it write no counter, and SYNC none of the loaded values. -/
theorem cycle_of_pwmApply {w : InWord} {s t : State} {thr : Byte} {d : Bit} (hw : inRst w = false)
    (hmem : .pwmApply thr d ∈ opsOf w s) (e : cycle w s = .next t) :
    t.pwm_thr = thr ∧ t.pwm_chan = d ∧ t.pwm_run = true ∧ t.pwm_cnt = s.pwm_cnt := by
  have hpwm : .pwmApply thr d = pwmOp s := (driver_mem_opsOf_iff rfl s hw).1 hmem
  obtain ⟨u, v, hu, hv, rfl⟩ := cycle_stages hw e
  have hreset : (ctlOp s).isReset = false := isReset_of_format_ne_inp (by simp [ctlOp_format])
  have htick : ctlOp s ≠ .pwmTick := fun h => nomatch (ctlOp_format s).symm.trans (congrArg Instr.format h)
  have hcnt : u.pwm_cnt = (afterEdges s).pwm_cnt := exec_keeps_pwm_cnt hreset htick hu
  rw [← hpwm, exec_pwmApply] at hv
  cases hv
  exact ⟨rfl, rfl, rfl, hcnt⟩

/-- Settles O37: the load, the PW bit, the load of what is loaded, and the apply inside its cycle. -/
theorem pwmApplyEffect : Obligations.PwmApplyEffect := by
  unfold Obligations.PwmApplyEffect
  refine ⟨exec_pwmApply, decodePw_eq_pwmApply_iff, fun s hrun => ?_, fun _ _ _ _ _ => cycle_of_pwmApply⟩
  exact congrArg Host.Outcome.next (loadPwm_of_loaded ⟨rfl, rfl, hrun⟩)

/-! ### PWM_TICK (R132) -/

/-- Settles O38: both 254 and 255 lie in the branch of the wrap. -/
theorem pwmTickEffect : Obligations.PwmTickEffect := by
  unfold Obligations.PwmTickEffect
  refine ⟨exec_pwmTick, decodePw_eq_pwmTick_iff, fun s h => ?_⟩
  have hwrap : s.pwm_cnt.toNat ≥ 254 := by
    obtain h | h := h <;> rw [h] <;> decide
  rw [exec_pwmTick, if_pos hwrap]

/-! ### The outputs (R140) -/

theorem pwmA_eq_true_iff (s : State) :
    pwmA s = true ↔ s.pwm_run = true ∧ s.pwm_chan = false ∧ s.pwm_cnt.toNat < s.pwm_thr.toNat := by
  simp [pwmA, pwmMatch, and_assoc]

theorem pwmB_eq_true_iff (s : State) :
    pwmB s = true ↔ s.pwm_run = true ∧ s.pwm_chan = true ∧ s.pwm_cnt.toNat < s.pwm_thr.toNat := by
  simp [pwmB, pwmMatch, and_assoc]

/-- Settles O41, one equation per output. -/
theorem outputEquations : Obligations.OutputEquations := by
  unfold Obligations.OutputEquations
  exact fun s => ⟨pwmA_eq_true_iff s, pwmB_eq_true_iff s⟩

/-! ### Low outputs (R141) -/

theorem inactiveOut_low (s : State) : inactiveOut s = false := by
  unfold inactiveOut
  cases hchan : s.pwm_chan with
  | false => simp [pwmB, hchan]
  | true => simp [pwmA, hchan]

theorem outputs_low_of_stopped {s : State} (h : s.pwm_run = false) : pwmA s = false ∧ pwmB s = false := by
  simp [pwmA, pwmB, h]

theorem cycle_of_reset {w : InWord} {s t : State} (hw : inRst w = true) (e : cycle w s = .next t) :
    t = loadReset (inBtnB w) (inBtnA w) s := by
  rw [cycle, opsOf_of_reset s hw] at e
  cases e
  rfl

/-- A service that loads the channel loads the direction that it leaves (R69). -/
theorem txService_keeps_chan_eq_dir {x : TxState} (h : x.pwm_chan = x.dir) :
    (txService x).pwm_chan = (txService x).dir := by
  cases hi : x.inited with
  | false => rw [txService_of_not_inited hi]; rfl
  | true =>
    obtain ⟨_, e⟩ | ⟨_, _, e⟩ | ⟨_, _, e⟩ := txService_running_cases hi
    · rw [e]
    · rw [e]; rfl
    · rw [e]; exact h

theorem cycle_keeps_chan_eq_dir {w : InWord} {s t : State} (h : s.pwm_chan = s.dir) (e : cycle w s = .next t) :
    t.pwm_chan = t.dir := by
  cases hw : inRst w with
  | true => rw [cycle_of_reset hw e, loadReset_pwm_chan, loadReset_dir]
  | false =>
    have htx := txOf_cycle hw e
    calc t.pwm_chan
        = (txService (txOf s)).pwm_chan := congrArg TxState.pwm_chan htx
      _ = (txService (txOf s)).dir := txService_keeps_chan_eq_dir h
      _ = t.dir := (congrArg TxState.dir htx).symm

theorem reachable_chan_eq_dir {s : State} (h : Reachable s) : s.pwm_chan = s.dir := by
  induction h with
  | reset b a s hwf => rfl
  | cycle w _ e ih => exact cycle_keeps_chan_eq_dir ih e
  | script ws n _ ih => exact ih

/-- The cycle that starts the PWM clock, INIT_APPLY's, also sets `inited`, and a reset clears both. -/
theorem reachable_inited_of_pwm_run {s : State} (h : Reachable s) : s.pwm_run = true → s.inited = true := by
  induction h with
  | reset b a s hwf => exact fun hrun => nomatch hrun
  | @cycle w s t _ e _ =>
    cases hw : inRst w with
    | true => simp [cycle_of_reset hw e]
    | false => exact fun _ => cycle_inited hw e
  | script ws n _ ih => exact ih

theorem reachable_pwm_run_eq_inited {s : State} (h : Reachable s) : s.pwm_run = s.inited :=
  Bool.eq_iff_iff.2 ⟨reachable_inited_of_pwm_run h, reachable_pwm_run_of_inited h⟩

/-- Settles O42: a high output's channel is the direction, by the invariant of reached states. -/
theorem inactiveAndStoppedOutputsLow : Obligations.InactiveAndStoppedOutputsLow := by
  unfold Obligations.InactiveAndStoppedOutputsLow
  refine ⟨fun s hs => ?_, inactiveOut_low, fun _ => outputs_low_of_stopped, fun s hs => ?_⟩
  · rw [pwmA_eq_true_iff, pwmB_eq_true_iff, ← reachable_chan_eq_dir hs]
    exact ⟨fun ⟨_, hforward, _⟩ => hforward, fun ⟨_, hbackward, _⟩ => hbackward⟩
  · rw [reachable_pwm_run_eq_inited hs]

end Sys2Proof.Machine
end

section
/-! PROOFS of 60_exceptions.md: no fault, no stall, and the one refusal (R150). -/

namespace Sys2Proof.Machine

/-- A step answers whatever word its pins sample. -/
theorem step_answers (s : State) : ∃ t, step s = .next t :=
  cycle_answers (pinWord s) (takePin s)

/-- The type of faults has no constructor (R150). -/
theorem no_fault (f : Fault) : False := nomatch f

/-- Settles O11: each operation has its meaning, so a cycle, which performs a list of operations, answers, and so does a
step, which is a cycle. The refusal is `modeOutsideSpec`, before any cycle. -/
theorem nothingFaultsOrStalls : Obligations.NothingFaultsOrStalls := by
  unfold Obligations.NothingFaultsOrStalls
  exact ⟨exec_answers, cycle_answers, step_answers, no_fault,
    fun t0 t1 t2 t3 b a => ⟨_, build_potentiometer_refused t0 t1 t2 t3 b a⟩⟩

end Sys2Proof.Machine
end

section
/-! PROOFS of 70_reset_and_hazards.md: the load of RESET (R173) and the composition of a cycle's operations as one
function (R170). -/

namespace Sys2Proof.Machine

/-! ### RESET (R173) -/

theorem exec_reset (b a : Bit) (s : State) : exec (.reset b a) s = .next (loadReset b a s) := rfl

/-- A later load replaces all that an earlier one wrote. -/
@[simp] theorem loadReset_loadReset (b a b' a' : Bit) (s : State) :
    loadReset b' a' (loadReset b a s) = loadReset b' a' s := rfl

theorem runOps_singleton (i : Instr) (s : State) : runOps [i] s = exec i s := by
  obtain ⟨t, ht⟩ := exec_answers i s
  rw [runOps_cons i [] s t ht, ht, runOps]

theorem cycle_eq_exec_reset {w : InWord} (hw : inRst w = true) (s : State) :
    cycle w s = exec (.reset (inBtnB w) (inBtnA w)) s := by
  rw [cycle, opsOf_of_reset s hw, runOps_singleton]

theorem runOps_reset_reset (b a b' a' : Bit) (s : State) :
    runOps [.reset b a, .reset b' a'] s = exec (.reset b' a') s := by
  rw [runOps_cons _ _ _ _ (exec_reset b a s), runOps_singleton, exec_reset, exec_reset, loadReset_loadReset]

/-- The configuration that RESET loads is R34's reset word, whatever the lines carry. -/
theorem pwmcfg_loadReset (b a : Bit) (s : State) : pwmcfg (loadReset b a s) = 0x1400 := by
  simp only [pwmcfg, loadReset_pwm_run, loadReset_pwm_chan, loadReset_pwm_thr]
  decide

/-- Settles O13: a reset cycle performs RESET alone, and its load reads nothing of the registers. -/
theorem resetEffect : Obligations.ResetEffect := by
  unfold Obligations.ResetEffect
  exact ⟨exec_reset, fun _ s hw => cycle_eq_exec_reset hw s, runOps_reset_reset,
    fun s => ⟨_, exec_reset true true s, pwmcfg_loadReset true true s, rfl, rfl, rfl, rfl, rfl, rfl⟩⟩

/-! ### R170's text, by its controller operation -/

theorem wholeCycle_of_reset {w : InWord} (hw : inRst w = true) (s : State) :
    wholeCycle w s = loadReset (inBtnB w) (inBtnA w) s := by
  rw [wholeCycle, if_pos hw]
  rfl

/-- What the text writes for `op = INIT_APPLY` is what that operation writes behind the cycle's sets, and then SYNC. -/
theorem wholeCycle_of_initApply {w : InWord} {s u : State} (hw : inRst w = false) (hi : s.inited = false)
    (hu : exec .initApply (afterEdges s) = .next u) : wholeCycle w s = shiftSync (inBtnB w) (inBtnA w) u := by
  rw [exec_initApply (s := afterEdges s) hi] at hu
  cases hu
  simp [wholeCycle, shiftSync, afterEdges, hw, hi]

theorem wholeCycle_of_svcDir {w : InWord} {s u : State} (hw : inRst w = false) (hi : s.inited = true)
    (hd : s.dir_flag = true) (hu : exec .svcDir (afterEdges s) = .next u) :
    wholeCycle w s = shiftSync (inBtnB w) (inBtnA w) u := by
  rw [exec_svcDir] at hu
  cases hu
  simp [wholeCycle, shiftSync, afterEdges, fallA, fallB, hw, hi, hd]

theorem wholeCycle_of_svcDuty {w : InWord} {s u : State} (hw : inRst w = false) (hi : s.inited = true)
    (hd : s.dir_flag = false) (hb : s.btn_flag = true) (hu : exec .svcDuty (afterEdges s) = .next u) :
    wholeCycle w s = shiftSync (inBtnB w) (inBtnA w) u := by
  rw [exec_svcDuty] at hu
  cases hu
  simp [wholeCycle, shiftSync, afterEdges, fallA, fallB, hw, hi, hd, hb]

theorem exec_pwmHold (s : State) : exec .pwmHold s = .next s := rfl

/-- Without an apply the text is left with the counter, which the driver operation advances or holds (R132, R133). -/
theorem wholeCycle_of_svcIdle {w : InWord} {s v : State} (hw : inRst w = false) (hi : s.inited = true)
    (hd : s.dir_flag = false) (hb : s.btn_flag = false)
    (hv : exec (if s.pwm_run then .pwmTick else .pwmHold) (afterEdges s) = .next v) :
    wholeCycle w s = shiftSync (inBtnB w) (inBtnA w) v := by
  cases hrun : s.pwm_run with
  | true =>
    rw [hrun, if_pos rfl, exec_pwmTick] at hv
    cases hv
    simp [wholeCycle, shiftSync, afterEdges, fallA, fallB, hw, hi, hd, hb, hrun]
  | false =>
    rw [hrun, if_neg Bool.false_ne_true, exec_pwmHold] at hv
    cases hv
    simp [wholeCycle, shiftSync, afterEdges, fallA, fallB, hw, hi, hd, hb, hrun]

/-! ### The composition is R170's function -/

/-- Behind a controller operation that drives an apply, the cycle's PWM_APPLY finds its values loaded (R135). -/
theorem exec_pwmOp_of_drive {s u v : State} {d : Drive} (hd : applyDrive (ctlOp s) s = some d)
    (hu : exec (ctlOp s) (afterEdges s) = .next u) (hv : exec (pwmOp s) u = .next v) : v = u := by
  rw [pwmOp_of_drive s d hd] at hv
  cases hv
  exact loadPwm_of_loaded (exec_loads_drive (s := afterEdges s) hd hu)

/-- R67's cases of the start-of-cycle registers: in each, the stages of the cycle write what the text writes. -/
theorem wholeCycle_of_stages {w : InWord} {s u v : State} (hw : inRst w = false)
    (hu : exec (ctlOp s) (afterEdges s) = .next u) (hv : exec (pwmOp s) u = .next v) :
    wholeCycle w s = shiftSync (inBtnB w) (inBtnA w) v := by
  cases hi : s.inited with
  | false =>
    have hctl := (ctlOp_eq_initApply_iff s).2 hi
    obtain rfl := exec_pwmOp_of_drive (hctl ▸ applyDrive_initApply s) hu hv
    exact wholeCycle_of_initApply hw hi (hctl ▸ hu)
  | true =>
    cases hd : s.dir_flag with
    | true =>
      have hctl := (ctlOp_eq_svcDir_iff s).2 ⟨hi, hd⟩
      obtain rfl := exec_pwmOp_of_drive (hctl ▸ applyDrive_svcDir s) hu hv
      exact wholeCycle_of_svcDir hw hi hd (hctl ▸ hu)
    | false =>
      cases hb : s.btn_flag with
      | true =>
        have hctl := (ctlOp_eq_svcDuty_iff s).2 ⟨hi, hd, hb⟩
        obtain rfl := exec_pwmOp_of_drive (hctl ▸ applyDrive_svcDuty s) hu hv
        exact wholeCycle_of_svcDuty hw hi hd hb (hctl ▸ hu)
      | false =>
        have hctl := (ctlOp_eq_svcIdle_iff s).2 ⟨hi, hd, hb⟩
        rw [hctl, exec_svcIdle] at hu
        cases hu
        rw [pwmOp_of_no_drive s (hctl ▸ applyDrive_svcIdle s)] at hv
        exact wholeCycle_of_svcIdle hw hi hd hb hv

/-- Settles O10: a reset cycle is RESET's load, and every other cycle's stages compose to the text. -/
theorem cycleIsWholeStep : Obligations.CycleIsWholeStep := by
  unfold Obligations.CycleIsWholeStep
  intro w s
  cases hw : inRst w with
  | true => rw [cycle_eq_exec_reset hw, exec_reset, wholeCycle_of_reset hw]
  | false =>
    obtain ⟨t, ht⟩ := cycle_answers w s
    obtain ⟨u, v, hu, hv, rfl⟩ := cycle_stages hw ht
    rw [ht, wholeCycle_of_stages hw hu hv]

end Sys2Proof.Machine
end

section
/-! PROOFS of 30_encoding.md: decode after encode (R66 to R71), the EV decode (R70), the composition of a cycle's operations
(R65, R134), and stimulus programs with their text (R76, R77). -/

namespace Sys2Proof.Machine

/-! ### Decode after encode -/

theorem decodeIn_mkIn (r b a : Bit) : decodeIn (mkIn r b a) = if r then .reset b a else .sync b a := by
  rw [decodeIn, inRst_mkIn, inBtnB_mkIn, inBtnA_mkIn]

/-- Outside the EV format one word selects one operation, so an encoding selects its own, whatever its don't-care bits. -/
theorem decode_encodeWith {i : Instr} (hi : i.format ≠ .ev) (x : DontCare) : decode (encodeWith x i) = [i] := by
  cases i with
  | reset b a | sync b a => simp [encodeWith, decode, decodeIn_mkIn]
  | setBtn | setDir | noEvent => exact absurd rfl hi
  | initApply | svcDir => simp [encodeWith, decode, decodeCw_mkCw]
  | svcIdle | svcDuty => rfl
  | pwmApply thr d => simp [encodeWith, decode, decodePw_mkPw]
  | pwmTick | pwmHold => rfl

/-- The don't-care bit of a flag-set's EV word is the other line's edge, which may select the other set beside it. -/
theorem mem_decode_encodeWith (x : DontCare) (i : Instr) : i ∈ decode (encodeWith x i) := by
  by_cases hi : i.format = .ev
  · cases i with
    | setBtn => simp only [encodeWith, decode, decodeEv_mkEv]; cases x.hi <;> simp
    | setDir => simp only [encodeWith, decode, decodeEv_mkEv]; cases x.lo <;> simp
    | noEvent => exact List.mem_singleton_self _
    | _ => cases hi
  · rw [decode_encodeWith hi]
    exact List.mem_singleton_self i

theorem decode_encode (i : Instr) : decode (encode i) = [i] := by
  by_cases hi : i.format = .ev
  · cases i with
    | setBtn | setDir | noEvent => rfl
    | _ => cases hi
  · exact decode_encodeWith hi _

/-- Settles O1, by the constructors of `Instr` in the three lemmas it cites. -/
theorem decodeEncodeRoundTrip : Obligations.DecodeEncodeRoundTrip := by
  unfold Obligations.DecodeEncodeRoundTrip
  exact fun x i _ => ⟨mem_decode_encodeWith x i, fun hi => decode_encodeWith hi x, decode_encode i⟩

/-! ### The EV decode of a state (R70) -/

theorem evOf_fallA (s : State) : (evOf s)[0] = fallA s := by
  have bit : ∀ b a : Bit, (mkEv b a)[0] = a := by decide
  exact bit _ _

theorem evOf_fallB (s : State) : (evOf s)[1] = fallB s := by
  have bit : ∀ b a : Bit, (mkEv b a)[1] = b := by decide
  exact bit _ _

theorem setBtn_mem_decodeEv_evOf (s : State) : .setBtn ∈ decodeEv (evOf s) ↔ fallA s = true := by
  rw [setBtn_mem_decodeEv, evOf_fallA]

theorem setDir_mem_decodeEv_evOf (s : State) : .setDir ∈ decodeEv (evOf s) ↔ fallB s = true := by
  rw [setDir_mem_decodeEv, evOf_fallB]

theorem noEvent_mem_decodeEv_evOf (s : State) :
    .noEvent ∈ decodeEv (evOf s) ↔ fallA s = false ∧ fallB s = false := by
  have none : ∀ w : EvWord, w = 0b00 ↔ w[0] = false ∧ w[1] = false := by decide
  rw [noEvent_mem_decodeEv, none, evOf_fallA, evOf_fallB]

/-- The rows that match an EV word are those of the operations it selects, in the table's order. -/
theorem ev_rows (w : EvWord) : opcodeTable.filter (fun r => r.covers (.ev w)) = (decodeEv w).map Instr.row := by
  revert w; decide

/-- The two sets write different flags and neither reads the other's. -/
theorem runOps_sets_commute (s : State) :
    ∃ t, runOps [.setBtn, .setDir] s = .next t ∧ runOps [.setDir, .setBtn] s = .next t := by
  refine ⟨{ s with btn_flag := s.inited || s.btn_flag, dir_flag := s.inited || s.dir_flag }, ?_, ?_⟩
  · rw [runOps_cons _ _ _ _ (exec_setBtn s), runOps_singleton, exec_setDir]
  · rw [runOps_cons _ _ _ _ (exec_setDir s), runOps_singleton, exec_setBtn]

/-- Settles O6: bit 0 is line A's edge and bit 1 line B's. -/
theorem evWordDecode : Obligations.EvWordDecode := by
  unfold Obligations.EvWordDecode
  exact ⟨fun s => ⟨setBtn_mem_decodeEv_evOf s, setDir_mem_decodeEv_evOf s, noEvent_mem_decodeEv_evOf s⟩, ev_rows,
    runOps_sets_commute⟩

/-- Settles O7, each word by evaluating its format's decoder. -/
theorem tableWordsDecode : Obligations.TableWordsDecode := by
  unfold Obligations.TableWordsDecode
  decide

/-! ### The composition of a cycle's operations (R65, R134) -/

theorem decodeEv_composed (w : EvWord) :
    decodeEv w = [.noEvent] ∨ decodeEv w = [.setBtn] ∨ decodeEv w = [.setDir] ∨ decodeEv w = [.setBtn, .setDir] := by
  revert w; decide

theorem opsOfFormat_append (f : Format) (l l' : List Instr) :
    opsOfFormat f (l ++ l') = opsOfFormat f l ++ opsOfFormat f l' := List.filter_append ..

theorem opsOfFormat_cons (f : Format) (i : Instr) (l : List Instr) :
    opsOfFormat f (i :: l) = (if i.format = f then [i] else []) ++ opsOfFormat f l := by
  by_cases hi : i.format = f <;> simp [opsOfFormat, hi]

/-- The EV selection has no operation of another format. -/
theorem opsOfFormat_decodeEv (f : Format) (w : EvWord) :
    opsOfFormat f (decodeEv w) = if f = .ev then decodeEv w else [] := by
  cases f <;> revert w <;> decide

/-- A cycle without reset has, format by format, SYNC, its EV selection, its controller and its PWM driver operation. -/
theorem opsOfFormat_opsOf {w : InWord} (s : State) (hw : inRst w = false) (f : Format) :
    opsOfFormat f (opsOf w s) =
      match f with
      | .inp => [.sync (inBtnB w) (inBtnA w)]
      | .ev => decodeEv (evOf s)
      | .cw => [ctlOp s]
      | .pw => [pwmOp s] := by
  rw [opsOf_of_no_reset s hw, opsOfFormat_append, opsOfFormat_decodeEv]
  simp only [opsOfFormat_cons, ctlOp_format, pwmOp_format]
  cases f <;> simp [Instr.format, opsOfFormat]

/-- An operation is performed in a cycle exactly when it is among the operations of its own format. -/
theorem mem_opsOf_iff (i : Instr) (w : InWord) (s : State) : i ∈ opsOf w s ↔ i ∈ opsOfFormat i.format (opsOf w s) := by
  simp [opsOfFormat]

theorem count_opsOf (i : Instr) (w : InWord) (s : State) :
    (opsOf w s).count i = (opsOfFormat i.format (opsOf w s)).count i := by
  rw [opsOfFormat, List.count_filter (by simp)]

/-- A cycle without reset performs no other controller operation than the one that its CW word selects. -/
theorem controller_mem_opsOf_iff {i : Instr} (hi : i.format = .cw) {w : InWord} (s : State) (hw : inRst w = false) :
    i ∈ opsOf w s ↔ ctlOp s = i := by
  rw [mem_opsOf_iff, opsOfFormat_opsOf s hw, hi, List.mem_singleton, eq_comm]

theorem ev_mem_opsOf_iff {i : Instr} (hi : i.format = .ev) {w : InWord} (s : State) (hw : inRst w = false) :
    i ∈ opsOf w s ↔ i ∈ decodeEv (evOf s) := by
  rw [mem_opsOf_iff, opsOfFormat_opsOf s hw, hi]

theorem isReset_of_mem_opsOf {i : Instr} {w : InWord} {s : State} (hw : inRst w = false) (h : i ∈ opsOf w s) :
    i.isReset = false := by
  cases i with
  | reset b a =>
    rw [mem_opsOf_iff, opsOfFormat_opsOf s hw] at h
    simp [Instr.format] at h
  | _ => rfl

theorem format_of_isPwmApply {i : Instr} (h : i.isPwmApply = true) : i.format = .pw := by
  cases i with
  | pwmApply thr d => rfl
  | _ => cases h

/-- Exactly SVC_IDLE drives no apply, of the controller's operations (R69). -/
theorem applyDrive_ctlOp_eq_none_iff (s : State) : applyDrive (ctlOp s) s = none ↔ ctlOp s = .svcIdle := by
  have hcw := ctlOp_format s
  cases h : ctlOp s with
  | initApply | svcIdle | svcDir | svcDuty => simp [applyDrive, applyIndex]
  | _ => rw [h] at hcw; cases hcw

/-- R134: the PWM driver applies exactly when the controller operation is not SVC_IDLE. -/
theorem pwmOp_isPwmApply_iff (s : State) : (pwmOp s).isPwmApply = true ↔ ctlOp s ≠ .svcIdle := by
  rw [ne_eq, ← applyDrive_ctlOp_eq_none_iff]
  cases hd : applyDrive (ctlOp s) s with
  | none => rw [pwmOp_of_no_drive s hd]; cases s.pwm_run <;> simp [Instr.isPwmApply]
  | some d => simp [pwmOp_of_drive s d hd, Instr.isPwmApply]

theorem opsOf_any_isPwmApply {w : InWord} (s : State) (hw : inRst w = false) :
    (opsOf w s).any Instr.isPwmApply = !(opsOf w s).contains .svcIdle := by
  have happly : (opsOf w s).any Instr.isPwmApply = true ↔ (pwmOp s).isPwmApply = true := by
    rw [List.any_eq_true]
    constructor
    · rintro ⟨i, hmem, hi⟩
      rwa [← (driver_mem_opsOf_iff (format_of_isPwmApply hi) s hw).1 hmem]
    · exact fun h => ⟨_, (driver_mem_opsOf_iff (pwmOp_format s) s hw).2 rfl, h⟩
  rw [Bool.eq_iff_iff, happly, pwmOp_isPwmApply_iff, Bool.not_eq_true', ← Bool.not_eq_true, List.contains_iff_mem,
    controller_mem_opsOf_iff rfl s hw]

theorem cycleWellFormed_opsOf_of_no_reset {w : InWord} (s : State) (hw : inRst w = false) :
    cycleWellFormed (opsOf w s) = true := by
  have hreset : (opsOf w s).any Instr.isReset = false :=
    List.any_eq_false.2 fun i hi => by simp [isReset_of_mem_opsOf hw hi]
  have hev := decodeEv_composed (evOf s)
  simp only [cycleWellFormed, hreset, opsOfFormat_opsOf s hw, opsOf_any_isPwmApply s hw]
  simpa [or_assoc] using hev

/-- Settles O8: RESET alone, else one operation list per format. -/
theorem cycleOperationsWellComposed : Obligations.CycleOperationsWellComposed := by
  unfold Obligations.CycleOperationsWellComposed
  intro w s
  cases hw : inRst w with
  | true => rw [opsOf_of_reset s hw]; rfl
  | false => exact cycleWellFormed_opsOf_of_no_reset s hw

/-! ### Stimulus programs (R76, R77) -/

theorem programWords_cons (d : Directive) (p : List Directive) :
    programWords (d :: p) = directiveWords d ++ programWords p := List.flatMap_cons

theorem programText_of_replicate {d : Directive} {k : Nat} {w : InWord} (h : directiveWords d = List.replicate k w) :
    programText [d] = List.replicate k (wordDigit w) := by
  rw [programText, programWords_cons, h, programWords, List.flatMap_nil, List.append_nil, List.map_replicate]

/-- R76 writes an IN word as its octal digit. -/
theorem wordDigit_ofNat {d : Nat} (hd : d < 8) : wordDigit (BitVec.ofNat 3 d) = Nat.digitChar d := by
  have digits : ∀ d < 8, wordDigit (BitVec.ofNat 3 d) = Nat.digitChar d := by decide
  exact digits d hd

theorem directiveWords_ne_nil {d : Directive} (h : d.wellFormed = true) : directiveWords d ≠ [] := by
  cases d with
  | rst k | idle k | holdA k | holdB k | holdAB k | wait k | raw k n =>
    simp [Directive.wellFormed, directiveWords] at h ⊢
    omega
  | por | pressA | pressB | pressAB => simp [directiveWords]

/-- Digits read as their words, before whatever the text goes on with. -/
theorem readDigits_digits_append (ws vs : List InWord) (cs : List Char) (h : readDigits cs = .ok vs) :
    readDigits (ws.map wordDigit ++ cs) = .ok (ws ++ vs) := by
  induction ws with
  | nil => exact h
  | cons w ws ih => simp [readDigits_digit, ih]

theorem readDigits_programText (p : List Directive) : readDigits (programText p) = .ok (programWords p) := by
  have h := readDigits_digits_append (programWords p) [] [] rfl
  rwa [List.append_nil, List.append_nil] at h

theorem readDigits_programText_comment (p : List Directive) {comment : List Char} (h : '\n' ∉ comment) :
    readDigits (programText p ++ ';' :: comment) = .ok (programWords p) := by
  have hread := readDigits_digits_append (programWords p) [] _ (readDigits_comment comment h)
  rwa [List.append_nil] at hread

theorem programText_length (p : List Directive) : (programText p).length = (programWords p).length :=
  List.length_map ..

/-- Settles O54: R76's table by one lemma on repeated words, and the text by induction over the digits. -/
theorem stimulusTextReadsBack : Obligations.StimulusTextReadsBack := by
  unfold Obligations.StimulusTextReadsBack
  refine ⟨fun k => ?_, rfl, rfl, rfl, rfl, fun _ => directiveWords_ne_nil, rfl, programWords_cons, fun p =>
    ⟨readDigits_programText p, programText_length p, fun _ => readDigits_programText_comment p⟩⟩
  refine ⟨rfl, programText_of_replicate (w := 0b111) rfl, rfl, programText_of_replicate (w := 0b011) rfl,
    rfl, programText_of_replicate (w := 0b010) rfl, rfl, programText_of_replicate (w := 0b001) rfl,
    rfl, programText_of_replicate (w := 0b000) rfl, fun d hd => ⟨rfl, ?_⟩, rfl⟩
  rw [programText_of_replicate rfl, wordDigit_ofNat hd]

end Sys2Proof.Machine
end

section
/-! PROOFS of 40_flag_layer.md: SYNC and the chains as a delay (R91, R92), the edge invariant (R102) and what it gives: each
detected fall has its service (R179), and a pending flag had its set (R59). -/

namespace Sys2Proof.Machine

/-! ### Runs of cycles -/

theorem statesOf_cons {w : InWord} (ws : List InWord) {s u : State} (e : cycle w s = .next u) :
    statesOf (w :: ws) s = s :: statesOf ws u := by
  simp [statesOf, e]

/-- What every cycle of a run keeps holds at the start of each of them. -/
theorem statesOf_keeps {P : State → Prop} {ws : List InWord} {s : State}
    (kept : ∀ w ∈ ws, ∀ u v, opsOf w u ⊆ opsDone ws s → cycle w u = .next v → P u → P v) (hs : P s) :
    ∀ u ∈ statesOf ws s, P u := by
  induction ws generalizing s with
  | nil => exact fun u hu => nomatch hu
  | cons w ws ih =>
    obtain ⟨v, hv⟩ := cycle_answers w s
    rw [opsDone_cons ws hv] at kept
    rw [statesOf_cons ws hv]
    refine List.forall_mem_cons.2 ⟨hs, ih (fun w' hw' x y hops => ?_) ?_⟩
    · exact kept w' (List.mem_cons_of_mem w hw') x y (List.subset_append_of_subset_right _ hops)
    · exact kept w List.mem_cons_self s v (List.subset_append_left ..) hv hs

/-! ### SYNC (R91, R92) -/

theorem exec_sync (b a : Bit) (s : State) :
    exec (.sync b a) s = .next { s with a_m := a, a_s := s.a_m, a_p := s.a_s, b_m := b, b_s := s.b_m, b_p := s.b_s } :=
  rfl

/-- Settles O16: the meaning is the shift. -/
theorem syncEffect : Obligations.SyncEffect := by
  unfold Obligations.SyncEffect
  exact exec_sync

theorem fallA_eq_true_iff (s : State) : fallA s = true ↔ s.a_p = true ∧ s.a_s = false := by simp [fallA]

theorem fallB_eq_true_iff (s : State) : fallB s = true ↔ s.b_p = true ∧ s.b_s = false := by simp [fallB]

/-- A reset cycle's sample enters the chains as any other's does. -/
theorem cycle_samples {w : InWord} {s t : State} (e : cycle w s = .next t) :
    t.a_m = inBtnA w ∧ t.b_m = inBtnB w := by
  cases hw : inRst w with
  | true => rw [cycle_of_reset hw e]; exact ⟨rfl, rfl⟩
  | false =>
    obtain ⟨⟨ha, _⟩, hb, _⟩ := cycle_synchronizers hw e
    exact ⟨ha, hb⟩

/-- R91's delay: three cycles on, the chains hold the three samples in order. -/
theorem synchronizers_hold_samples {w0 w1 w2 : InWord} {s s1 s2 t : State} (h1 : inRst w1 = false)
    (h2 : inRst w2 = false) (e0 : cycle w0 s = .next s1) (e1 : cycle w1 s1 = .next s2) (e2 : cycle w2 s2 = .next t) :
    (t.a_m = inBtnA w2 ∧ t.a_s = inBtnA w1 ∧ t.a_p = inBtnA w0) ∧
    (t.b_m = inBtnB w2 ∧ t.b_s = inBtnB w1 ∧ t.b_p = inBtnB w0) := by
  obtain ⟨ha0, hb0⟩ := cycle_samples e0
  obtain ⟨⟨ha1, has, _⟩, hb1, hbs, _⟩ := cycle_synchronizers h1 e1
  obtain ⟨⟨ha2, has', hap'⟩, hb2, hbs', hbp'⟩ := cycle_synchronizers h2 e2
  exact ⟨⟨ha2, has'.trans ha1, hap'.trans (has.trans ha0)⟩, hb2, hbs'.trans hb1, hbp'.trans (hbs.trans hb0)⟩

/-- R92: a fall is two consecutive samples, 1 and then 0. -/
theorem falls_iff_samples {w0 w1 w2 : InWord} {s s1 s2 t : State} (h1 : inRst w1 = false) (h2 : inRst w2 = false)
    (e0 : cycle w0 s = .next s1) (e1 : cycle w1 s1 = .next s2) (e2 : cycle w2 s2 = .next t) :
    (fallA t = true ↔ inBtnA w0 = true ∧ inBtnA w1 = false) ∧
    (fallB t = true ↔ inBtnB w0 = true ∧ inBtnB w1 = false) := by
  obtain ⟨⟨_, has, hap⟩, _, hbs, hbp⟩ := synchronizers_hold_samples h1 h2 e0 e1 e2
  rw [fallA_eq_true_iff, fallB_eq_true_iff, has, hap, hbs, hbp]
  exact ⟨Iff.rfl, Iff.rfl⟩

/-- Settles O17. -/
theorem synchronizerIsPureDelay : Obligations.SynchronizerIsPureDelay := by
  unfold Obligations.SynchronizerIsPureDelay
  intro s w0 w1 w2 h1 h2
  obtain ⟨s1, e0⟩ := cycle_answers w0 s
  obtain ⟨s2, e1⟩ := cycle_answers w1 s1
  obtain ⟨t, e2⟩ := cycle_answers w2 s2
  obtain ⟨⟨ham, has, hap⟩, hbm, hbs, hbp⟩ := synchronizers_hold_samples h1 h2 e0 e1 e2
  obtain ⟨ha, hb⟩ := falls_iff_samples h1 h2 e0 e1 e2
  refine ⟨t, ?_, ham, has, hap, hbm, hbs, hbp, ha, hb⟩
  rw [runWords_cons _ e0, runWords_cons _ e1, runWords_cons _ e2, runWords]

/-! ### The edge invariant (R102) -/

/-- The low level that a fall found in the second stage is the older level of the next cycle. -/
theorem cycle_no_second_fall {w : InWord} {s t : State} (hw : inRst w = false) (e : cycle w s = .next t) :
    (fallA s = true → fallA t = false) ∧ (fallB s = true → fallB t = false) := by
  obtain ⟨⟨_, _, ha⟩, _, _, hb⟩ := cycle_synchronizers hw e
  constructor
  · intro h
    simp [fallA, ha, ((fallA_eq_true_iff s).1 h).2]
  · intro h
    simp [fallB, hb, ((fallB_eq_true_iff s).1 h).2]

/-- A toggle pending after a cycle is that cycle's own: the cycle's fall of line B excludes an older one. -/
theorem toggle_set_this_cycle {w : InWord} {s t : State} (hw : inRst w = false) (e : cycle w s = .next t)
    (h : EdgeInv s) (hd : t.dir_flag = true) : fallB s = true ∧ s.inited = true ∧ s.dir_flag = false := by
  obtain ⟨_, hlow, _⟩ := h
  rw [cycle_dir_flag hw e, Bool.and_eq_true] at hd
  obtain ⟨hi, hfall⟩ := hd
  obtain ⟨hhigh, _⟩ := (fallB_eq_true_iff s).1 hfall
  refine ⟨hfall, hi, Bool.eq_false_iff.2 fun hpending => ?_⟩
  rw [hlow hpending] at hhigh
  cases hhigh

/-- Settles O24. -/
theorem noConsecutiveFalls : Obligations.NoConsecutiveFalls := by
  unfold Obligations.NoConsecutiveFalls
  intro s t w hw e
  obtain ⟨ha, hb⟩ := cycle_no_second_fall hw e
  exact ⟨ha, hb, toggle_set_this_cycle hw e⟩

/-- Without a pending toggle a running state serves its duty step, so one pending after the cycle has its fall in it. -/
theorem fallA_of_btn_flag {w : InWord} {s t : State} (hw : inRst w = false) (e : cycle w s = .next t)
    (hi : s.inited = true) (hd : s.dir_flag = false) (hb : t.btn_flag = true) : fallA s = true := by
  cases hs : s.btn_flag with
  | false => simpa [(cycle_flags hw e).1, hi, hs] using hb
  | true =>
    have hctl : ctlOp s = .svcDuty := (ctlOp_eq_svcDuty_iff s).2 ⟨hi, hd, hs⟩
    simpa [(cycle_flags hw e).1, hi, hctl, clrBtn] using hb

theorem edgeInv_loadReset (b a : Bit) (s : State) : EdgeInv (loadReset b a s) :=
  ⟨fun _ => ⟨rfl, rfl⟩, fun hd => absurd hd Bool.false_ne_true, fun hd => absurd hd Bool.false_ne_true⟩

theorem cycle_keeps_edgeInv {w : InWord} {s t : State} (h : EdgeInv s) (e : cycle w s = .next t) : EdgeInv t := by
  cases hw : inRst w with
  | true =>
    rw [cycle_of_reset hw e]
    exact edgeInv_loadReset _ _ s
  | false =>
    refine ⟨fun hi => ?_, cycle_dir_flag_b_p e, fun hd hb => ?_⟩
    · rw [cycle_inited hw e] at hi
      cases hi
    · obtain ⟨_, hi, hidle⟩ := toggle_set_this_cycle hw e h hd
      have hfall : fallA s = true := fallA_of_btn_flag hw e hi hidle hb
      obtain ⟨⟨_, _, hap⟩, _⟩ := cycle_synchronizers hw e
      exact hap.trans ((fallA_eq_true_iff s).1 hfall).2

theorem edgeInv_takePin {s : State} (h : EdgeInv s) : EdgeInv (takePin s) := by
  rw [takePin_registers]
  exact h

/-- Settles O26: sampling the pins writes no register, and the cycle keeps the invariant. -/
theorem edgeInvariantKept : Obligations.EdgeInvariantKept := by
  unfold Obligations.EdgeInvariantKept
  exact fun s t h e => cycle_keeps_edgeInv (edgeInv_takePin h) e

/-! ### Each detected fall has its service (R179) -/

theorem count_setBtn_opsOf {w : InWord} (s : State) (hw : inRst w = false) :
    (opsOf w s).count .setBtn = (fallA s).toNat := by
  rw [count_opsOf, opsOfFormat_opsOf s hw, evOf, decodeEv_mkEv]
  cases fallA s <;> cases fallB s <;> rfl

theorem count_setDir_opsOf {w : InWord} (s : State) (hw : inRst w = false) :
    (opsOf w s).count .setDir = (fallB s).toNat := by
  rw [count_opsOf, opsOfFormat_opsOf s hw, evOf, decodeEv_mkEv]
  cases fallA s <;> cases fallB s <;> rfl

/-- A duty step that waits behind a toggle meets no fall of line A, by the edge invariant, so none is merged into it. -/
theorem cycle_conserves_duty {w : InWord} {s t : State} (h : EdgeInv s) (hi : s.inited = true) (hw : inRst w = false)
    (e : cycle w s = .next t) :
    (opsOf w s).count .svcDuty + t.btn_flag.toNat = s.btn_flag.toNat + (opsOf w s).count .setBtn := by
  rw [count_controller_opsOf rfl s hw, count_setBtn_opsOf s hw, (cycle_flags hw e).1, hi, Bool.true_and]
  cases hb : s.btn_flag with
  | false => simp [ctlOp_eq_svcDuty_iff, hb]
  | true =>
    cases hd : s.dir_flag with
    | false => simp [(ctlOp_eq_svcDuty_iff s).2 ⟨hi, hd, hb⟩, clrBtn]
    | true =>
      obtain ⟨_, _, hlow⟩ := h
      simp [(ctlOp_eq_svcDir_iff s).2 ⟨hi, hd⟩, clrBtn, fallA, hlow hd hb]

/-- A pending toggle is served in its cycle, and `dir_flag` is then the cycle's own fall of line B. -/
theorem cycle_conserves_toggle {w : InWord} {s t : State} (hi : s.inited = true) (hw : inRst w = false)
    (e : cycle w s = .next t) :
    (opsOf w s).count .svcDir + t.dir_flag.toNat = s.dir_flag.toNat + (opsOf w s).count .setDir := by
  have hserved : (opsOf w s).count .svcDir = s.dir_flag.toNat := by
    rw [count_controller_opsOf rfl s hw]
    cases hd : s.dir_flag <;> simp [ctlOp_eq_svcDir_iff, hi, hd]
  rw [hserved, count_setDir_opsOf s hw, cycle_dir_flag hw e, hi, Bool.true_and]

/-- Settles O27, by induction over the words with the edge invariant. -/
theorem everyDetectedFallIsServedOnce : Obligations.EveryDetectedFallIsServedOnce := by
  unfold Obligations.EveryDetectedFallIsServedOnce
  intro ws s t h hi hws e
  induction ws generalizing s with
  | nil => cases e; simp [opsDone]
  | cons w ws ih =>
    obtain ⟨hw, hrest⟩ := List.forall_mem_cons.1 hws
    obtain ⟨u, hu⟩ := cycle_answers w s
    rw [runWords_cons ws hu] at e
    obtain ⟨hduty, htoggle⟩ := ih u (cycle_keeps_edgeInv h hu) (cycle_inited hw hu) hrest e
    have hduty' := cycle_conserves_duty h hi hw hu
    have htoggle' := cycle_conserves_toggle hi hw hu
    simp only [opsDone_cons ws hu, List.count_append]
    omega

/-! ### A pending flag had its set (R59) -/

theorem setBtn_of_btn_flag_set {w : InWord} {s t : State} (e : cycle w s = .next t) (hs : s.btn_flag = false)
    (ht : t.btn_flag = true) : .setBtn ∈ opsOf w s := by
  cases hw : inRst w with
  | true => rw [cycle_of_reset hw e] at ht; cases ht
  | false =>
    have hfall : s.inited = true ∧ fallA s = true := by simpa [(cycle_flags hw e).1, hs] using ht
    rw [ev_mem_opsOf_iff rfl s hw, setBtn_mem_decodeEv_evOf]
    exact hfall.2

theorem setDir_of_dir_flag_set {w : InWord} {s t : State} (e : cycle w s = .next t) (hs : s.dir_flag = false)
    (ht : t.dir_flag = true) : .setDir ∈ opsOf w s := by
  cases hw : inRst w with
  | true => rw [cycle_of_reset hw e] at ht; cases ht
  | false =>
    have hfall : s.inited = true ∧ fallB s = true := by simpa [(cycle_flags hw e).2, hs] using ht
    rw [ev_mem_opsOf_iff rfl s hw, setDir_mem_decodeEv_evOf]
    exact hfall.2

theorem flag_at_start {flag : State → Bit} {ws : List InWord} {s t : State} (e : runWords ws s = .next t)
    (held : ∀ u ∈ statesOf ws s, flag u = true) (ht : flag t = true) : flag s = true := by
  cases ws with
  | nil => cases e; exact ht
  | cons w ws =>
    obtain ⟨u, hu⟩ := cycle_answers w s
    rw [statesOf_cons ws hu] at held
    exact held s List.mem_cons_self

theorem setAndHeld_cons {op : Instr} {flag : State → Bit} {w : InWord} {ws : List InWord} {s v t : State}
    (e : cycle w s = .next v) (h : SetAndHeld op flag ws v t) : SetAndHeld op flag (w :: ws) s t := by
  obtain ⟨before, w', after, x, y, rfl, hbefore, hrest⟩ := h
  exact ⟨w :: before, w', after, x, y, rfl, (runWords_cons before e).trans hbefore, hrest⟩

/-- The cycle that set the flag is that of the last 0: the induction looks for a 0 further on before it takes the first. -/
theorem setAndHeld_of_low {op : Instr} {flag : State → Bit}
    (hset : ∀ w s t, cycle w s = .next t → flag s = false → flag t = true → op ∈ opsOf w s) {ws : List InWord}
    {s t : State} (e : runWords ws s = .next t) (hlow : ∃ u ∈ statesOf ws s, flag u = false) (ht : flag t = true) :
    SetAndHeld op flag ws s t := by
  induction ws generalizing s with
  | nil => obtain ⟨u, hu, _⟩ := hlow; cases hu
  | cons w ws ih =>
    obtain ⟨v, hv⟩ := cycle_answers w s
    rw [runWords_cons ws hv] at e
    by_cases hlater : ∃ u ∈ statesOf ws v, flag u = false
    · exact setAndHeld_cons hv (ih e hlater)
    · have held : ∀ u ∈ statesOf ws v, flag u = true := by simpa using hlater
      rw [statesOf_cons ws hv] at hlow
      have hs : flag s = false := by simpa [hlater] using hlow
      have hflag : flag v = true := flag_at_start e held ht
      exact ⟨[], w, ws, s, v, rfl, rfl, hv, e, hset w s v hv hs hflag, hs, hflag, held, ht⟩

theorem setAndHeld_of_rise {op : Instr} {flag : State → Bit}
    (hset : ∀ w s t, cycle w s = .next t → flag s = false → flag t = true → op ∈ opsOf w s) {ws : List InWord}
    {s t : State} (e : runWords ws s = .next t) (hs : flag s = false) (ht : flag t = true) :
    SetAndHeld op flag ws s t := by
  refine setAndHeld_of_low hset e ?_ ht
  by_contra hnone
  have hhigh : flag s = true := flag_at_start e (by simpa using hnone) ht
  rw [hs] at hhigh
  cases hhigh

/-- Settles O25, one argument for both flags. -/
theorem pendingFlagHadItsEdge : Obligations.PendingFlagHadItsEdge := by
  unfold Obligations.PendingFlagHadItsEdge
  exact fun ws s t e => ⟨setAndHeld_of_rise (fun _ _ _ => setBtn_of_btn_flag_set) e,
    setAndHeld_of_rise (fun _ _ _ => setDir_of_dir_flag_set) e⟩

end Sys2Proof.Machine
end

section
/-! PROOFS of 10_state.md and 41_controller.md: the writers of each register (R20), the invariant of reached states (R37), the
cursor's run (R118) and the wait of a pending duty step (R119). -/

namespace Sys2Proof.Machine

/-! ### What a cycle does, by its controller operation (R67) -/

/-- The cursor, the direction and the configuration that a cycle leaves are those of its service. -/
theorem cycle_service {w : InWord} {s t : State} (hw : inRst w = false) (e : cycle w s = .next t) :
    t.next_index = (txService (txOf s)).next_index ∧ t.last_index = (txService (txOf s)).last_index ∧
      t.dir = (txService (txOf s)).dir ∧ t.pwm_thr = (txService (txOf s)).pwm_thr ∧
      t.pwm_chan = (txService (txOf s)).pwm_chan ∧ t.pwm_run = (txService (txOf s)).pwm_run := by
  have htx := txOf_cycle hw e
  exact ⟨congrArg TxState.next_index htx, congrArg TxState.last_index htx, congrArg TxState.dir htx,
    congrArg TxState.pwm_thr htx, congrArg TxState.pwm_chan htx, congrArg TxState.pwm_run htx⟩

theorem cycle_of_initApply {w : InWord} {s t : State} (hw : inRst w = false) (hctl : ctlOp s = .initApply)
    (e : cycle w s = .next t) :
    t.next_index = s.next_index + 1 ∧ t.last_index = s.next_index ∧ t.dir = s.dir ∧
      t.pwm_thr = memRead s.mem s.next_index ∧ t.pwm_chan = s.dir ∧ t.pwm_run = true := by
  have h := cycle_service hw e
  rw [txService_of_not_inited ((ctlOp_eq_initApply_iff s).1 hctl)] at h
  exact h

theorem cycle_of_svcDir {w : InWord} {s t : State} (hw : inRst w = false) (hctl : ctlOp s = .svcDir)
    (e : cycle w s = .next t) :
    t.next_index = s.next_index ∧ t.last_index = s.last_index ∧ t.dir = !s.dir ∧
      t.pwm_thr = memRead s.mem s.last_index ∧ t.pwm_chan = !s.dir ∧ t.pwm_run = true := by
  obtain ⟨hi, hd⟩ := (ctlOp_eq_svcDir_iff s).1 hctl
  have h := cycle_service hw e
  rw [txService_of_dir hi hd] at h
  exact h

theorem cycle_of_svcDuty {w : InWord} {s t : State} (hw : inRst w = false) (hctl : ctlOp s = .svcDuty)
    (e : cycle w s = .next t) :
    t.next_index = s.next_index + 1 ∧ t.last_index = s.next_index ∧ t.dir = s.dir ∧
      t.pwm_thr = memRead s.mem s.next_index ∧ t.pwm_chan = s.dir ∧ t.pwm_run = true := by
  obtain ⟨hi, hd, hb⟩ := (ctlOp_eq_svcDuty_iff s).1 hctl
  have h := cycle_service hw e
  rw [txService_of_btn hi hd hb] at h
  exact h

theorem cycle_of_svcIdle {w : InWord} {s t : State} (hw : inRst w = false) (hctl : ctlOp s = .svcIdle)
    (e : cycle w s = .next t) :
    t.next_index = s.next_index ∧ t.last_index = s.last_index ∧ t.dir = s.dir ∧
      t.pwm_thr = s.pwm_thr ∧ t.pwm_chan = s.pwm_chan ∧ t.pwm_run = s.pwm_run := by
  obtain ⟨hi, hd, hb⟩ := (ctlOp_eq_svcIdle_iff s).1 hctl
  have h := cycle_service hw e
  rw [txService_of_idle hi hd hb] at h
  exact h

theorem ctlOp_cases (s : State) :
    ctlOp s = .initApply ∨ ctlOp s = .svcDir ∨ ctlOp s = .svcDuty ∨ ctlOp s = .svcIdle := by
  have hcw := ctlOp_format s
  cases h : ctlOp s with
  | initApply | svcIdle | svcDir | svcDuty => simp
  | _ => rw [h] at hcw; cases hcw

/-- A cycle without reset advances the counter where it ticks and holds it elsewhere (R131 to R133). -/
theorem cycle_pwm_cnt {w : InWord} {s t : State} (hw : inRst w = false) (e : cycle w s = .next t) :
    t.pwm_cnt = if pwmOp s = .pwmTick then nextCount s.pwm_cnt else s.pwm_cnt := by
  obtain ⟨u, v, hu, hv, rfl⟩ := cycle_stages hw e
  have hcnt : u.pwm_cnt = (afterEdges s).pwm_cnt :=
    exec_keeps_pwm_cnt (isReset_of_format_ne_inp (by simp [ctlOp_format]))
      (fun h => nomatch (ctlOp_format s).symm.trans (congrArg Instr.format h)) hu
  rw [shiftSync_pwm_cnt]
  split_ifs with htick
  · rw [htick] at hv
    cases hv
    exact congrArg nextCount hcnt
  · exact (exec_keeps_pwm_cnt (isReset_of_format_ne_inp (by simp [pwmOp_format])) htick hv).trans hcnt

theorem cycle_keeps_mem {w : InWord} {s t : State} (e : cycle w s = .next t) : t.mem = s.mem := by
  cases hw : inRst w with
  | true => rw [cycle_of_reset hw e, loadReset_mem]
  | false => exact cycle_mem hw e

/-! ### The writers (R20) -/

theorem clrBtn_eq_true_iff (i : Instr) : clrBtn i = true ↔ i = .initApply ∨ i = .svcDuty := by
  cases i <;> simp [clrBtn]

theorem clrDir_eq_true_iff (i : Instr) : clrDir i = true ↔ i = .initApply ∨ i = .svcDir := by
  cases i <;> simp [clrDir]

theorem initApply_of_inited_change {w : InWord} {s t : State} (hw : inRst w = false) (e : cycle w s = .next t)
    (h : t.inited ≠ s.inited) : .initApply ∈ opsOf w s ∧ t.inited = true := by
  have ht := cycle_inited hw e
  rw [ht, ne_comm] at h
  exact ⟨(controller_mem_opsOf_iff rfl s hw).2 (ctlOp_of_not_inited (Bool.eq_false_iff.2 h)), ht⟩

/-- The cursor moves with INIT_APPLY and SVC_DUTY only. -/
theorem cycle_keeps_cursor {w : InWord} {s t : State} (hw : inRst w = false) (e : cycle w s = .next t)
    (hinit : ctlOp s ≠ .initApply) (hduty : ctlOp s ≠ .svcDuty) :
    t.next_index = s.next_index ∧ t.last_index = s.last_index := by
  obtain h | h | h | h := ctlOp_cases s
  · exact absurd h hinit
  · obtain ⟨hnext, hlast, _⟩ := cycle_of_svcDir hw h e
    exact ⟨hnext, hlast⟩
  · exact absurd h hduty
  · obtain ⟨hnext, hlast, _⟩ := cycle_of_svcIdle hw h e
    exact ⟨hnext, hlast⟩

theorem cycle_keeps_dir {w : InWord} {s t : State} (hw : inRst w = false) (e : cycle w s = .next t)
    (hdir : ctlOp s ≠ .svcDir) : t.dir = s.dir := by
  obtain h | h | h | h := ctlOp_cases s
  · obtain ⟨_, _, hkeep, _⟩ := cycle_of_initApply hw h e
    exact hkeep
  · exact absurd h hdir
  · obtain ⟨_, _, hkeep, _⟩ := cycle_of_svcDuty hw h e
    exact hkeep
  · obtain ⟨_, _, hkeep, _⟩ := cycle_of_svcIdle hw h e
    exact hkeep

theorem clear_of_btn_flag_fall {w : InWord} {s t : State} (hw : inRst w = false) (e : cycle w s = .next t)
    (ht : t.btn_flag = false) (hs : s.btn_flag = true) : .svcDuty ∈ opsOf w s ∨ .initApply ∈ opsOf w s := by
  rw [controller_mem_opsOf_iff rfl s hw, controller_mem_opsOf_iff rfl s hw, or_comm, ← clrBtn_eq_true_iff]
  by_contra hclr
  rw [cycle_keeps_btn_flag hw (Bool.eq_false_iff.2 hclr) e hs] at ht
  cases ht

theorem clear_of_dir_flag_fall {w : InWord} {s t : State} (hw : inRst w = false) (e : cycle w s = .next t)
    (ht : t.dir_flag = false) (hs : s.dir_flag = true) : .svcDir ∈ opsOf w s ∨ .initApply ∈ opsOf w s := by
  rw [controller_mem_opsOf_iff rfl s hw, controller_mem_opsOf_iff rfl s hw, or_comm, ← clrDir_eq_true_iff]
  by_contra hclr
  simp [(cycle_flags hw e).2, hs, hclr] at ht

/-- A cycle either applies, and then PWM_APPLY loads what it leaves, or its service is idle and the configuration stands. -/
theorem apply_of_config_change {w : InWord} {s t : State} (hw : inRst w = false) (e : cycle w s = .next t)
    (h : t.pwm_thr ≠ s.pwm_thr ∨ t.pwm_chan ≠ s.pwm_chan ∨ t.pwm_run ≠ s.pwm_run) :
    .pwmApply t.pwm_thr t.pwm_chan ∈ opsOf w s ∧ t.pwm_run = true := by
  cases hd : applyDrive (ctlOp s) s with
  | none =>
    obtain ⟨_, _, _, hthr, hchan, hrun⟩ := cycle_of_svcIdle hw ((applyDrive_ctlOp_eq_none_iff s).1 hd) e
    simp [hthr, hchan, hrun] at h
  | some d =>
    have hmem := (driver_mem_opsOf_iff rfl s hw).2 (pwmOp_of_drive s d hd).symm
    obtain ⟨hthr, hchan, hrun, _⟩ := cycle_of_pwmApply hw hmem e
    rw [hthr, hchan]
    exact ⟨hmem, hrun⟩

theorem tick_of_pwm_cnt_change {w : InWord} {s t : State} (hw : inRst w = false) (e : cycle w s = .next t)
    (h : t.pwm_cnt ≠ s.pwm_cnt) : .pwmTick ∈ opsOf w s := by
  rw [driver_mem_opsOf_iff rfl s hw]
  by_contra htick
  rw [cycle_pwm_cnt hw e, if_neg (Ne.symm htick)] at h
  exact h rfl

/-- Settles O36, register by register. -/
theorem registersChangeOnlyByTheirWriters : Obligations.RegistersChangeOnlyByTheirWriters := by
  unfold Obligations.RegistersChangeOnlyByTheirWriters
  intro s t w hw e
  have cursor (h : ¬(t.next_index = s.next_index ∧ t.last_index = s.last_index)) :
      .initApply ∈ opsOf w s ∨ .svcDuty ∈ opsOf w s := by
    rw [controller_mem_opsOf_iff rfl s hw, controller_mem_opsOf_iff rfl s hw]
    by_contra hnone
    obtain ⟨hinit, hduty⟩ := not_or.1 hnone
    exact h (cycle_keeps_cursor hw e hinit hduty)
  refine ⟨initApply_of_inited_change hw e, fun h => cursor fun hkeep => h hkeep.1,
    fun h => cursor fun hkeep => h hkeep.2, fun h => ?_, fun ht hs => setBtn_of_btn_flag_set e hs ht,
    clear_of_btn_flag_fall hw e, fun ht hs => setDir_of_dir_flag_set e hs ht, clear_of_dir_flag_fall hw e,
    apply_of_config_change hw e, tick_of_pwm_cnt_change hw e, cycle_mem hw e⟩
  rw [controller_mem_opsOf_iff rfl s hw]
  by_contra hdir
  exact h (cycle_keeps_dir hw e hdir)

/-! ### The invariant of reached states (R37) -/

theorem configInv_loadReset (b a : Bit) (s : State) : ConfigInv (loadReset b a s) :=
  ⟨fun hi => absurd hi Bool.false_ne_true, fun _ => ⟨rfl, rfl, rfl, rfl, rfl, rfl, rfl, rfl, rfl, rfl, rfl, rfl, rfl⟩⟩

/-- INIT_APPLY makes a booting state a running one. -/
theorem runningInv_after_initApply {w : InWord} {s t : State} (hw : inRst w = false) (hi : s.inited = false)
    (hcnt : s.pwm_cnt = 0) (e : cycle w s = .next t) : RunningInv t := by
  obtain ⟨hnext, hlast, hdir, hthr, hchan, hrun⟩ := cycle_of_initApply hw (ctlOp_of_not_inited hi) e
  have hbound : s.pwm_cnt.toNat < Config.maxCount := by rw [hcnt]; decide
  refine ⟨hnext.trans (congrArg (· + 1) hlast.symm), ?_, hchan.trans hdir.symm, hrun,
    runOps_keeps (fun _ _ _ _ => exec_keeps_pwm_cnt_lt) e hbound⟩
  rw [hthr, hlast, cycle_mem hw e]

theorem cycle_keeps_configInv {w : InWord} {s t : State} (h : ConfigInv s) (e : cycle w s = .next t) :
    ConfigInv t := by
  obtain ⟨running, boot⟩ := h
  cases hw : inRst w with
  | true =>
    rw [cycle_of_reset hw e]
    exact configInv_loadReset _ _ s
  | false =>
    have hrunning : RunningInv t := by
      cases hi : s.inited with
      | true => exact cycle_keeps_runningInv hi (running hi) hw e
      | false =>
        obtain ⟨_, _, _, _, _, _, _, _, hcnt, _⟩ := boot hi
        exact runningInv_after_initApply hw hi hcnt e
    refine ⟨fun _ => hrunning, fun hi => ?_⟩
    rw [cycle_inited hw e] at hi
    cases hi

theorem configInv_takePin {s : State} (h : ConfigInv s) : ConfigInv (takePin s) := by
  rw [takePin_registers]
  exact h

/-- Settles O34, by the reset cycle, the cycle of INIT_APPLY and the cycle of a running state. -/
theorem configInvariantKept : Obligations.ConfigInvariantKept := by
  unfold Obligations.ConfigInvariantKept
  exact fun s t h e => cycle_keeps_configInv (configInv_takePin h) e

/-! ### Legal states (R37, R174) -/

theorem legalState_loadReset (b a : Bit) {s : State} (h : Memory.wf s.mem = true) : LegalState (loadReset b a s) :=
  ⟨h, configInv_loadReset b a s, edgeInv_loadReset b a s⟩

theorem resetWith_eq_loadReset (b a : Bit) : State.resetWith b a = loadReset b a State.reset := rfl

theorem legalState_resetWith (b a : Bit) : LegalState (State.resetWith b a) := by
  rw [resetWith_eq_loadReset]
  exact legalState_loadReset b a reset_mem_wf

/-- Settles O14: `State.reset` is the load over itself. -/
theorem resetStateIsLegal : Obligations.ResetStateIsLegal := by
  unfold Obligations.ResetStateIsLegal
  exact ⟨exec_reset true true State.reset, legalState_resetWith true true, legalState_resetWith⟩

theorem cycle_keeps_legalState {w : InWord} {s t : State} (h : LegalState s) (e : cycle w s = .next t) :
    LegalState t := by
  obtain ⟨hwf, hconfig, hedge⟩ := h
  exact ⟨by rwa [cycle_keeps_mem e], cycle_keeps_configInv hconfig e, cycle_keeps_edgeInv hedge e⟩

theorem reachable_legalState {s : State} (h : Reachable s) : LegalState s := by
  induction h with
  | reset b a s hwf => exact legalState_loadReset b a hwf
  | cycle w _ e ih => exact cycle_keeps_legalState ih e
  | script ws n _ ih => exact ih

theorem reachable_takePin {s : State} (h : Reachable s) : Reachable (takePin s) := by
  rw [takePin_registers]
  exact .script _ _ h

/-- Settles O35: the two invariants hold after a reset and every cycle keeps them; the environment's fields are in neither. -/
theorem reachableStatesAreLegal : Obligations.ReachableStatesAreLegal := by
  unfold Obligations.ReachableStatesAreLegal
  exact ⟨fun _ => reachable_legalState, fun s t h e => .cycle (pinWord s) (reachable_takePin h) e⟩

/-! ### The cursor's run (R118) -/

/-- Settles O33: what a run counts, with R37 at its end. -/
theorem cursorCountsServices : Obligations.CursorCountsServices := by
  unfold Obligations.CursorCountsServices
  intro ws s t hi h hws e
  obtain ⟨⟨hnext, hthr, hchan, _⟩, hmem, hlast, hdir⟩ := runWords_counts_services hi h hws e
  rw [hmem] at hthr
  exact ⟨hlast, hnext, hdir, hthr, hchan⟩

/-! ### A duty step behind a toggle (R119, R184) -/

/-- Where line B's older level is low, the toggle's cycle sets no new toggle, and the duty step that waited is next. -/
theorem ctlOp_after_toggle {w : InWord} {s t : State} (hlow : s.b_p = false) (hb : s.btn_flag = true)
    (hw : inRst w = false) (hctl : ctlOp s = .svcDir) (e : cycle w s = .next t) : ctlOp t = .svcDuty := by
  have hdir : t.dir_flag = false := by simp [cycle_dir_flag hw e, fallB, hlow]
  have hbtn : t.btn_flag = true := cycle_keeps_btn_flag hw (by rw [hctl]; rfl) e hb
  exact (ctlOp_eq_svcDuty_iff t).2 ⟨cycle_inited hw e, hdir, hbtn⟩

/-- The second of the two configurations: the next entry on the new direction's channel. -/
theorem config_of_duty_after_toggle {w0 w1 : InWord} {s t u : State} (h0 : inRst w0 = false) (h1 : inRst w1 = false)
    (hctl : ctlOp s = .svcDir) (e0 : cycle w0 s = .next t) (hctl' : ctlOp t = .svcDuty) (e1 : cycle w1 t = .next u) :
    u.pwm_thr = memRead s.mem s.next_index ∧ u.pwm_chan = !s.dir ∧ u.pwm_run = true := by
  obtain ⟨hnext, _, hdir, _⟩ := cycle_of_svcDir h0 hctl e0
  obtain ⟨_, _, _, hthr, hchan, hrun⟩ := cycle_of_svcDuty h1 hctl' e1
  exact ⟨by rw [hthr, cycle_mem h0 e0, hnext], hchan.trans hdir, hrun⟩

/-- Settles O32: the edge invariant gives the low level that `ctlOp_after_toggle` asks for. -/
theorem pendingDutyServedWithinTwoCycles : Obligations.PendingDutyServedWithinTwoCycles := by
  unfold Obligations.PendingDutyServedWithinTwoCycles
  intro s w0 w1 ⟨_, hlow, _⟩ hi hb h0 h1
  refine ⟨fun hd => (controller_mem_opsOf_iff rfl s h0).2 ((ctlOp_eq_svcDuty_iff s).2 ⟨hi, hd, hb⟩), fun hd => ?_⟩
  have hctl : ctlOp s = .svcDir := (ctlOp_eq_svcDir_iff s).2 ⟨hi, hd⟩
  obtain ⟨t, ht⟩ := cycle_answers w0 s
  obtain ⟨u, hu⟩ := cycle_answers w1 t
  have hctl' : ctlOp t = .svcDuty := ctlOp_after_toggle (hlow hd) hb h0 hctl ht
  obtain ⟨_, _, _, hthr, hchan, _⟩ := cycle_of_svcDir h0 hctl ht
  obtain ⟨hthr', hchan', _⟩ := config_of_duty_after_toggle h0 h1 hctl ht hctl' hu
  exact ⟨t, u, ht, hu, (controller_mem_opsOf_iff rfl s h0).2 hctl, (controller_mem_opsOf_iff rfl t h1).2 hctl', hthr,
    hchan, hthr', hchan'⟩

end Sys2Proof.Machine
end

section
/-! PROOFS of 42_pwm_driver.md: PWM_HOLD (R133), the apply again (R135), the counter's run and the waveform of the active
output (R142 to R146, R181). -/

namespace Sys2Proof.Machine

/-! ### PWM_HOLD and a repeated apply (R133, R135) -/

theorem decodePw_eq_pwmHold_iff (w : PwWord) (thr : Byte) (d : Bit) : decodePw w thr d = .pwmHold ↔ w = 0b00 := by
  have bits : w = 0b00 ↔ w[1] = false ∧ w[0] = false := by revert w; decide
  rw [bits]
  unfold decodePw
  split_ifs with happly hrun
  · simp [happly]
  · simp [hrun]
  · simp [happly, hrun]

/-- Without an apply the controller operation is SVC_IDLE, and then a reached state ticks. -/
theorem reachable_pwmOp_ne_pwmHold {s : State} (h : Reachable s) : pwmOp s ≠ .pwmHold := by
  intro hold
  have hidle : ctlOp s = .svcIdle := by
    by_contra hbusy
    have happly := (pwmOp_isPwmApply_iff s).2 hbusy
    rw [hold] at happly
    cases happly
  rw [pwmOp_of_svcIdle h hidle] at hold
  cases hold

/-- Settles O39. -/
theorem pwmHoldEffect : Obligations.PwmHoldEffect := by
  unfold Obligations.PwmHoldEffect
  exact ⟨exec_pwmHold, decodePw_eq_pwmHold_iff, fun _ => reachable_pwmOp_ne_pwmHold⟩

/-- Settles O40: the second load finds its values loaded. -/
theorem applyIsIdempotent : Obligations.ApplyIsIdempotent := by
  unfold Obligations.ApplyIsIdempotent
  intro thr d s
  exact ⟨_, exec_pwmApply thr d s, congrArg Host.Outcome.next (loadPwm_of_loaded ⟨rfl, rfl, rfl⟩), rfl⟩

/-! ### One driver operation per cycle -/

theorem pwmOp_eq_pwmTick_iff (s : State) : pwmOp s = .pwmTick ↔ ctlOp s = .svcIdle ∧ s.pwm_run = true := by
  rw [← applyDrive_ctlOp_eq_none_iff]
  cases hd : applyDrive (ctlOp s) s with
  | none => rw [pwmOp_of_no_drive s hd]; cases s.pwm_run <;> simp
  | some d => simp [pwmOp_of_drive s d hd]

theorem count_pwmTick_opsOf {w : InWord} (s : State) (hw : inRst w = false) :
    (opsOf w s).count .pwmTick = if pwmOp s = .pwmTick then 1 else 0 := by
  rw [count_opsOf, opsOfFormat_opsOf s hw]
  simp [Instr.format, List.count_singleton]

theorem countP_isPwmApply_opsOf {w : InWord} (s : State) (hw : inRst w = false) :
    (opsOf w s).countP Instr.isPwmApply = if (pwmOp s).isPwmApply = true then 1 else 0 := by
  have hformat : (opsOf w s).countP Instr.isPwmApply = (opsOfFormat .pw (opsOf w s)).countP Instr.isPwmApply := by
    rw [opsOfFormat, List.countP_filter]
    refine List.countP_congr fun i _ => ?_
    simpa using format_of_isPwmApply
  rw [hformat, opsOfFormat_opsOf s hw, List.countP_singleton]

/-- Where the PWM runs, the driver operation of a cycle is a tick or an apply (R71). -/
theorem cycle_ticks_or_applies {w : InWord} {s : State} (hw : inRst w = false) (hrun : s.pwm_run = true) :
    (opsOf w s).count .pwmTick + (opsOf w s).countP Instr.isPwmApply = 1 := by
  rw [count_pwmTick_opsOf s hw, countP_isPwmApply_opsOf s hw]
  simp only [pwmOp_eq_pwmTick_iff, pwmOp_isPwmApply_iff, hrun, and_true]
  by_cases hidle : ctlOp s = .svcIdle <;> simp [hidle]

theorem cycle_keeps_pwm_run {w : InWord} {s t : State} (hw : inRst w = false) (e : cycle w s = .next t)
    (hrun : s.pwm_run = true) : t.pwm_run = true := by
  by_contra hstop
  exact hstop (apply_of_config_change hw e (.inr (.inr (hrun ▸ hstop)))).2

/-! ### The counter's run (R132, R181) -/

theorem cycle_counts_ticks {w : InWord} {s t : State} (hw : inRst w = false) (e : cycle w s = .next t)
    (hcnt : s.pwm_cnt.toNat < 255) :
    t.pwm_cnt.toNat = (s.pwm_cnt.toNat + (opsOf w s).count .pwmTick) % 255 := by
  rw [cycle_pwm_cnt hw e, count_pwmTick_opsOf s hw]
  split_ifs
  · exact nextCount_toNat s.pwm_cnt hcnt
  · exact (Nat.mod_eq_of_lt hcnt).symm

theorem runWords_counts_ticks {ws : List InWord} {s t : State} (hcnt : s.pwm_cnt.toNat < 255) (hws : NoReset ws)
    (e : runWords ws s = .next t) :
    t.pwm_cnt.toNat = (s.pwm_cnt.toNat + (opsDone ws s).count .pwmTick) % 255 := by
  induction ws generalizing s with
  | nil => cases e; exact (Nat.mod_eq_of_lt hcnt).symm
  | cons w ws ih =>
    obtain ⟨hw, hrest⟩ := List.forall_mem_cons.1 hws
    obtain ⟨u, hu⟩ := cycle_answers w s
    rw [runWords_cons ws hu] at e
    have hstep := cycle_counts_ticks hw hu hcnt
    rw [ih (by omega) hrest e, hstep, opsDone_cons ws hu, List.count_append, Nat.mod_add_mod, add_assoc]

/-- R181: a run's cycles are its ticks and its applies. -/
theorem opsDone_ticks_add_applies {ws : List InWord} {s : State} (hrun : s.pwm_run = true) (hws : NoReset ws) :
    (opsDone ws s).count .pwmTick + (opsDone ws s).countP Instr.isPwmApply = ws.length := by
  induction ws generalizing s with
  | nil => rfl
  | cons w ws ih =>
    obtain ⟨hw, hrest⟩ := List.forall_mem_cons.1 hws
    obtain ⟨u, hu⟩ := cycle_answers w s
    have hstep := cycle_ticks_or_applies hw hrun
    have hlater := ih (cycle_keeps_pwm_run hw hu hrun) hrest
    rw [opsDone_cons ws hu, List.count_append, List.countP_append, List.length_cons]
    omega

/-- Settles O47. -/
theorem counterCountsTicks : Obligations.CounterCountsTicks := by
  unfold Obligations.CounterCountsTicks
  exact fun ws s t hcnt hws e => ⟨runWords_counts_ticks hcnt hws e, fun hrun => opsDone_ticks_add_applies hrun hws⟩

/-! ### A configuration that stands (R142) -/

/-- The cycle of a running state without an apply ticks, and the configuration stands. -/
theorem cycle_without_apply {w : InWord} {s t : State} (hw : inRst w = false) (e : cycle w s = .next t)
    (hno : ∀ i ∈ opsOf w s, i.isPwmApply = false) (hrun : s.pwm_run = true) :
    t.pwm_run = true ∧ t.pwm_chan = s.pwm_chan ∧ t.pwm_thr = s.pwm_thr ∧ t.pwm_cnt = nextCount s.pwm_cnt := by
  have hidle : ctlOp s = .svcIdle := by
    by_contra hbusy
    have happly := (pwmOp_isPwmApply_iff s).2 hbusy
    rw [hno _ ((driver_mem_opsOf_iff (pwmOp_format s) s hw).2 rfl)] at happly
    cases happly
  obtain ⟨_, _, _, hthr, hchan, hrun'⟩ := cycle_of_svcIdle hw hidle e
  refine ⟨hrun'.trans hrun, hchan, hthr, ?_⟩
  rw [cycle_pwm_cnt hw e, if_pos ((pwmOp_eq_pwmTick_iff s).2 ⟨hidle, hrun⟩)]

theorem statesOf_config_stands {ws : List InWord} {s : State} (hrun : s.pwm_run = true) (hcnt : s.pwm_cnt.toNat < 255)
    (hws : NoReset ws) (hno : ∀ i ∈ opsDone ws s, i.isPwmApply = false) :
    ∀ u ∈ statesOf ws s, u.pwm_run = true ∧ u.pwm_thr = s.pwm_thr ∧ u.pwm_cnt.toNat < 255 := by
  refine statesOf_keeps (fun w hw u v hops e h => ?_) ⟨hrun, rfl, hcnt⟩
  obtain ⟨hurun, huthr, _⟩ := h
  obtain ⟨hvrun, _, hvthr, hvcnt⟩ := cycle_without_apply (hws w hw) e (fun i hi => hno i (hops hi)) hurun
  exact ⟨hvrun, hvthr.trans huthr, hvcnt ▸ nextCount_lt u.pwm_cnt⟩

/-- Settles O44: no count lies below 0, and every count lies below 255. -/
theorem boundaryThresholdsAreConstant : Obligations.BoundaryThresholdsAreConstant := by
  unfold Obligations.BoundaryThresholdsAreConstant
  intro ws s u hrun hcnt hws hno hu
  obtain ⟨hurun, huthr, hucnt⟩ := statesOf_config_stands hrun hcnt hws hno u hu
  rw [activeOut_of_run u hurun, pwmMatch, huthr]
  exact ⟨fun hzero => by simp [hzero], fun hfull => by simpa [hfull] using hucnt⟩

/-! ### A window of 255 ticks (R143) -/

/-- From a count that is `c` modulo 255, cycles without an apply start at the counts `c`, `c + 1`, … modulo 255. -/
theorem statesOf_counts {ws : List InWord} {s : State} {c : Nat} (hc : s.pwm_cnt.toNat = c % 255)
    (hrun : s.pwm_run = true) (hws : NoReset ws) (hno : ∀ i ∈ opsDone ws s, i.isPwmApply = false) :
    (statesOf ws s).map (fun u => u.pwm_cnt.toNat) = (List.range' c ws.length).map (· % 255) := by
  induction ws generalizing s c with
  | nil => rfl
  | cons w ws ih =>
    obtain ⟨hw, hrest⟩ := List.forall_mem_cons.1 hws
    obtain ⟨u, hu⟩ := cycle_answers w s
    rw [opsDone_cons ws hu, List.forall_mem_append] at hno
    obtain ⟨hnow, hlater⟩ := hno
    obtain ⟨hurun, _, _, hucnt⟩ := cycle_without_apply hw hu hnow hrun
    have hnext : u.pwm_cnt.toNat = (c + 1) % 255 := by
      rw [hucnt, nextCount_toNat _ (by rw [hc]; exact Nat.mod_lt c (by decide)), hc, Config.maxCount, Nat.mod_add_mod]
    rw [statesOf_cons ws hu, List.map_cons, ih hnext hurun hrest hlater, hc, List.length_cons, List.range'_succ,
      List.map_cons]

/-- Consecutive numbers, as many as the modulus, take each residue once. -/
theorem range'_mod_perm_range (c n : Nat) : ((List.range' c n).map (· % n)).Perm (List.range n) := by
  have hresidues := Nat.multiset_Ico_map_mod c n
  have hlist : Multiset.Ico c (c + n) = ↑(List.range' c n) := by
    simp [Multiset.Ico, Finset.Ico, LocallyFiniteOrder.finsetIco]
  rw [hlist] at hresidues
  exact Multiset.coe_eq_coe.1 hresidues

theorem countP_lt_range (n k : Nat) : (List.range n).countP (fun c => decide (c < k)) = min n k := by
  induction n with
  | zero => simp
  | succ n ih =>
    rw [List.range_succ, List.countP_append, ih, List.countP_singleton]
    split_ifs with hlt <;> simp only [decide_eq_true_eq] at hlt <;> omega

/-- A run of ticks alone has no apply. -/
theorem no_apply_of_all_ticks {ws : List InWord} {s : State} (hrun : s.pwm_run = true) (hws : NoReset ws)
    (hticks : (opsDone ws s).count .pwmTick = ws.length) : ∀ i ∈ opsDone ws s, i.isPwmApply = false := by
  have hsum := opsDone_ticks_add_applies hrun hws
  have hnone : (opsDone ws s).countP Instr.isPwmApply = 0 := by omega
  simpa using hnone

/-- In a window of 255 ticks a predicate of the count holds as often as it does of 0 to 254. -/
theorem countP_window {ws : List InWord} {s : State} (hrun : s.pwm_run = true) (hcnt : s.pwm_cnt.toNat < 255)
    (hws : NoReset ws) (hlen : ws.length = 255) (hno : ∀ i ∈ opsDone ws s, i.isPwmApply = false) (p : Nat → Bool) :
    (statesOf ws s).countP (fun u => p u.pwm_cnt.toNat) = (List.range 255).countP p := by
  have hcounts := statesOf_counts (Nat.mod_eq_of_lt hcnt).symm hrun hws hno
  calc (statesOf ws s).countP (fun u => p u.pwm_cnt.toNat)
      = ((statesOf ws s).map fun u => u.pwm_cnt.toNat).countP p := List.countP_map.symm
    _ = ((List.range' s.pwm_cnt.toNat 255).map (· % 255)).countP p := by rw [hcounts, hlen]
    _ = (List.range 255).countP p := (range'_mod_perm_range _ _).countP_eq p

/-- Settles O45: the window's counts are 0 to 254 in some order, and the active output compares each with one threshold. -/
theorem dutyWindowHasThresholdHighCycles : Obligations.DutyWindowHasThresholdHighCycles := by
  unfold Obligations.DutyWindowHasThresholdHighCycles
  intro ws s hrun hcnt hws hlen hticks
  have hno := no_apply_of_all_ticks hrun hws (hticks.trans hlen.symm)
  have window := countP_window hrun hcnt hws hlen hno
  refine ⟨fun c hc => ?_, ?_, ?_⟩
  · rw [window (· == c)]
    exact List.count_eq_one_of_mem List.nodup_range (List.mem_range.2 hc)
  · have hcompare : (statesOf ws s).countP activeOut =
        (statesOf ws s).countP fun u => decide (u.pwm_cnt.toNat < s.pwm_thr.toNat) := by
      refine List.countP_congr fun u hu => ?_
      obtain ⟨hurun, huthr, _⟩ := statesOf_config_stands hrun hcnt hws hno u hu
      rw [activeOut_of_run u hurun, pwmMatch, huthr]
    rw [hcompare, window fun c => decide (c < s.pwm_thr.toNat), countP_lt_range]
    exact Nat.min_eq_right (Nat.le_of_lt_succ s.pwm_thr.isLt)
  · exact List.countP_eq_zero.2 fun u _ => by simp [inactiveOut_low]

/-! ### The edges of the waveform (R144) and the two lines (R146) -/

/-- Settles O46: the compare before and after one count. -/
theorem waveformEdges : Obligations.WaveformEdges := by
  unfold Obligations.WaveformEdges
  intro s t w hw hmem e hcnt hlow hhigh
  have htick : pwmOp s = .pwmTick := ((driver_mem_opsOf_iff rfl s hw).1 hmem).symm
  obtain ⟨hidle, hrun⟩ := (pwmOp_eq_pwmTick_iff s).1 htick
  obtain ⟨_, _, _, hthr, _, hrun'⟩ := cycle_of_svcIdle hw hidle e
  have hnext : t.pwm_cnt.toNat = (s.pwm_cnt.toNat + 1) % 255 := by
    rw [cycle_pwm_cnt hw e, if_pos htick]
    exact nextCount_toNat s.pwm_cnt hcnt
  have hzero : (0 : Byte).toNat = 0 := rfl
  rw [activeOut_of_run s hrun, activeOut_of_run t (hrun'.trans hrun), pwmMatch, pwmMatch, hthr,
    ← BitVec.toNat_inj, ← BitVec.toNat_inj, hzero]
  simp only [decide_eq_true_eq, decide_eq_false_iff_not]
  omega

/-- Settles O43: the lines select by `pwm_chan`. -/
theorem outputsNeverBothHigh : Obligations.OutputsNeverBothHigh := by
  unfold Obligations.OutputsNeverBothHigh
  rintro s ⟨ha, hb⟩
  obtain ⟨_, hforward, _⟩ := (pwmA_eq_true_iff s).1 ha
  obtain ⟨_, hbackward, _⟩ := (pwmB_eq_true_iff s).1 hb
  rw [hforward] at hbackward
  cases hbackward

end Sys2Proof.Machine
end

section
/-! PROOFS of 20_memory.md: the duty table is never written (R14, R63), and it reads back as it was given (R7, R50). -/

namespace Sys2Proof.Machine

/-! ### No operation writes the table -/

theorem exec_keeps_mem {i : Instr} {s t : State} (e : exec i s = .next t) : t.mem = s.mem := by
  cases i <;> cases e <;> rfl

theorem takePin_mem (s : State) : (takePin s).mem = s.mem := by
  rw [takePin_registers]

theorem step_keeps_mem {s t : State} (e : step s = .next t) : t.mem = s.mem :=
  (cycle_keeps_mem e).trans (takePin_mem s)

/-- Settles O49: the same list has the same form and the same entries. -/
theorem tableNeverChanges : Obligations.TableNeverChanges := by
  unfold Obligations.TableNeverChanges
  refine ⟨fun i s t e => ?_, fun s t e => ?_⟩
  · rw [exec_keeps_mem e]
    exact ⟨rfl, fun _ => rfl⟩
  · rw [step_keeps_mem e]
    exact ⟨rfl, id, fun _ => rfl⟩

/-! ### A table given as the argument -/

theorem find_append (m m' : Memory) (a : Nat) :
    Memory.find (m ++ m') a = (Memory.find m a).or (Memory.find m' a) := by
  induction m with
  | nil => rfl
  | cons c m ih =>
    simp only [List.cons_append, Memory.find]
    split_ifs
    · rfl
    · exact ih

theorem find_cell_other {i : Index} {a : Nat} (b : Byte) (h : i.toNat ≠ a) : Memory.find (Memory.cell i b) a = none := by
  unfold Memory.cell
  split_ifs <;> simp [Memory.find, h]

/-- An entry's image lists it or leaves it to the default, which it then equals. -/
theorem find_cell_getD (i : Index) (b : Byte) :
    (Memory.find (Memory.cell i b) i.toNat).getD (defaultThresh i) = b := by
  unfold Memory.cell
  split_ifs with h
  · exact h.symm
  · simp [Memory.find]

/-- Each entry is read from its own cell, the other three listing nothing at its address. -/
theorem memRead_ofTable (t0 t1 t2 t3 : Byte) :
    memRead (Memory.ofTable t0 t1 t2 t3) 0 = t0 ∧ memRead (Memory.ofTable t0 t1 t2 t3) 1 = t1 ∧
    memRead (Memory.ofTable t0 t1 t2 t3) 2 = t2 ∧ memRead (Memory.ofTable t0 t1 t2 t3) 3 = t3 := by
  simp only [memRead, Memory.ofTable, find_append]
  refine ⟨?_, ?_, ?_, ?_⟩
  · simpa [find_cell_other] using find_cell_getD 0 t0
  · simpa [find_cell_other] using find_cell_getD 1 t1
  · simpa [find_cell_other] using find_cell_getD 2 t2
  · simpa [find_cell_other] using find_cell_getD 3 t3

/-! ### Canonical images -/

/-- What a canonical image lists at an address is what reads there and differs from the default. -/
theorem find_eq_some_iff {m : Memory} (h : Memory.wf m = true) (a : Nat) (b : Byte) :
    Memory.find m a = some b ↔
      a < Config.tableLen ∧ b ≠ defaultThresh (BitVec.ofNat 2 a) ∧ memRead m (BitVec.ofNat 2 a) = b := by
  have hread (ha : a < Config.tableLen) :
      memRead m (BitVec.ofNat 2 a) = (Memory.find m a).getD (defaultThresh (BitVec.ofNat 2 a)) := by
    rw [memRead, BitVec.toNat_ofNat, Nat.mod_eq_of_lt (show a < 2 ^ 2 from ha)]
  constructor
  · intro hfind
    obtain ⟨ha, hb⟩ := find_some h hfind
    exact ⟨ha, hb, by rw [hread ha, hfind, Option.getD_some]⟩
  · rintro ⟨ha, hb, hget⟩
    rw [hread ha] at hget
    cases hfind : Memory.find m a with
    | none => rw [hfind] at hget; exact absurd hget.symm hb
    | some b' => rw [hfind] at hget; exact congrArg some hget

theorem find_eq_of_memRead_eq {m m' : Memory} (h : Memory.wf m = true) (h' : Memory.wf m' = true)
    (hread : ∀ i : Index, memRead m i = memRead m' i) (a : Nat) : Memory.find m a = Memory.find m' a := by
  refine Option.ext fun b => ?_
  rw [find_eq_some_iff h, find_eq_some_iff h', hread]

theorem wfFrom_cons_iff (lo : Nat) (c : Host.Cell) (m : Memory) :
    Memory.wfFrom lo (c :: m) = true ↔
      lo ≤ c.1 ∧ c.1 < Config.tableLen ∧ c.2 ≠ defaultThresh (BitVec.ofNat 2 c.1) ∧ Memory.wfFrom (c.1 + 1) m = true := by
  simp [Memory.wfFrom, and_assoc]

@[simp] theorem find_cons_self (c : Host.Cell) (m : Memory) : Memory.find (c :: m) c.1 = some c.2 := by
  simp [Memory.find]

/-- The first listed address of a canonical image is the least one: nothing is found below it. -/
theorem fst_le_of_find_eq {lo' : Nat} {c c' : Host.Cell} {m m' : Memory}
    (h' : Memory.wfFrom lo' (c' :: m') = true) (e : ∀ a, Memory.find (c :: m) a = Memory.find (c' :: m') a) :
    c'.1 ≤ c.1 := by
  obtain ⟨_, hlen, hne, hrest⟩ := (wfFrom_cons_iff _ _ _).1 h'
  by_contra hlt
  have hbelow : Memory.find (c' :: m') c.1 = none :=
    find_below ((wfFrom_cons_iff c'.1 c' m').2 ⟨le_rfl, hlen, hne, hrest⟩) (Nat.lt_of_not_le hlt)
  simp [← e] at hbelow

/-- Rising addresses without a repeated default: the finds fix the list. -/
theorem eq_of_find_eq {lo lo' : Nat} {m m' : Memory} (h : Memory.wfFrom lo m = true) (h' : Memory.wfFrom lo' m' = true)
    (e : ∀ a, Memory.find m a = Memory.find m' a) : m = m' := by
  induction m generalizing lo lo' m' with
  | nil =>
    cases m' with
    | nil => rfl
    | cons c' m' => simpa [Memory.find] using e c'.1
  | cons c m ih =>
    cases m' with
    | nil => simpa [Memory.find] using e c.1
    | cons c' m' =>
      have haddr : c.1 = c'.1 :=
        Nat.le_antisymm (fst_le_of_find_eq h fun a => (e a).symm) (fst_le_of_find_eq h' e)
      have hbyte : c.2 = c'.2 := by
        have hhead := e c.1
        rw [find_cons_self, haddr, find_cons_self] at hhead
        exact Option.some.inj hhead
      obtain rfl : c = c' := Prod.ext haddr hbyte
      obtain ⟨_, _, _, hm⟩ := (wfFrom_cons_iff _ _ _).1 h
      obtain ⟨_, _, _, hm'⟩ := (wfFrom_cons_iff _ _ _).1 h'
      rw [ih hm hm' fun a => ?_]
      by_cases ha : c.1 = a
      · rw [← ha, find_below hm (Nat.lt_succ_self _), find_below hm' (Nat.lt_succ_self _)]
      · simpa [Memory.find, ha] using e a

/-- Settles O50. -/
theorem tableArgumentReadsBack : Obligations.TableArgumentReadsBack := by
  unfold Obligations.TableArgumentReadsBack
  exact ⟨memRead_ofTable, fun _ _ h h' hread => eq_of_find_eq h h' (find_eq_of_memRead_eq h h' hread)⟩

end Sys2Proof.Machine
end

section
/-! PROOFS of 70_reset_and_hazards.md: the step and its sampled word, the boot (R175), levels held through reset (D12), the
latency of a press (R182) and the transaction level (R172). -/

namespace Sys2Proof.Machine

/-! ### The step (R15, R170) -/

theorem step_scripted {s : State} {w : InWord} {ws : List InWord} (h : s.pins_ahead = w :: ws) :
    step s = cycle w { s with pins_ahead := ws } := by
  obtain ⟨hword, htake⟩ := takePin_scripted s w ws h
  rw [step, hword, htake]

theorem step_drawn {s : State} (h : s.pins_ahead = []) :
    step s = cycle (Config.pinSample s.draws) { s with draws := s.draws + 1 } := by
  obtain ⟨hword, htake⟩ := takePin_drawn s h
  rw [step, hword, htake]

/-- SYNC stands last in a cycle without reset, so the cycle is the rest of its list and then SYNC. -/
theorem cycle_ends_with_sync {w : InWord} (s : State) (hw : inRst w = false) :
    ∃ u, runOps (decodeEv (evOf s) ++ [ctlOp s, pwmOp s]) s = .next u ∧ cycle w s = exec (decodeIn w) u := by
  obtain ⟨u, hu⟩ := runOps_answers (decodeEv (evOf s) ++ [ctlOp s, pwmOp s]) s
  have hlist : opsOf w s = (decodeEv (evOf s) ++ [ctlOp s, pwmOp s]) ++ [decodeIn w] := by
    rw [opsOf_of_no_reset s hw, decodeIn_of_no_reset hw, List.append_assoc]
    rfl
  exact ⟨u, hu, by rw [cycle, hlist, runOps_append _ _ s u hu, runOps_singleton]⟩

/-- Settles O9: the words of the state are those of the state whose pin sample is taken. -/
theorem stepRunsDecodedWord : Obligations.StepRunsDecodedWord := by
  unfold Obligations.StepRunsDecodedWord
  refine ⟨fun s w ws h => ?_, fun s => step_drawn⟩
  rw [step_scripted h]
  refine ⟨fun hw => ?_, cycle_ends_with_sync { s with pins_ahead := ws }⟩
  rw [cycle_eq_exec_reset hw, decodeIn_of_reset hw]

/-! ### Boot (R175) and levels held through reset (D12) -/

theorem fallA_of_level {s : State} (h : s.a_p = s.a_s) : fallA s = false := by simp [fallA, h]

theorem fallB_of_level {s : State} (h : s.b_p = s.b_s) : fallB s = false := by simp [fallB, h]

theorem falls_loadReset (b a : Bit) (s : State) :
    fallA (loadReset b a s) = false ∧ fallB (loadReset b a s) = false :=
  ⟨fallA_of_level rfl, fallB_of_level rfl⟩

/-- The cycle after a reset performs INIT_APPLY: it clears both flags, and no line has fallen. -/
theorem flags_after_boot {w : InWord} {b a : Bit} {s u : State} (hw : inRst w = false)
    (e : cycle w (loadReset b a s) = .next u) : u.btn_flag = false ∧ u.dir_flag = false := by
  obtain ⟨hbtn, hdir⟩ := cycle_flags hw e
  exact ⟨by simp [hbtn], by simp [hdir]⟩

theorem pwm_cnt_after_boot {w : InWord} {b a : Bit} {s u : State} (hw : inRst w = false)
    (e : cycle w (loadReset b a s) = .next u) : u.pwm_cnt = 0 := by
  have hctl : ctlOp (loadReset b a s) = .initApply := ctlOp_of_not_inited rfl
  rw [cycle_pwm_cnt hw e, if_neg (by simp [pwmOp_eq_pwmTick_iff, hctl]), loadReset_pwm_cnt]

/-- Settles O15. -/
theorem bootSequence : Obligations.BootSequence := by
  unfold Obligations.BootSequence
  intro s w0 w1 h0 h1
  obtain ⟨t, ht⟩ := cycle_answers w0 s
  obtain rfl := cycle_of_reset h0 ht
  obtain ⟨u, hu⟩ := cycle_answers w1 (loadReset (inBtnB w0) (inBtnA w0) s)
  have hctl : ctlOp (loadReset (inBtnB w0) (inBtnA w0) s) = .initApply := ctlOp_of_not_inited rfl
  obtain ⟨hnext, hlast, _, hthr, hchan, hrun⟩ := cycle_of_initApply h1 hctl hu
  obtain ⟨hlowA, hlowB⟩ := outputs_low_of_stopped (loadReset_pwm_run (inBtnB w0) (inBtnA w0) s)
  obtain ⟨hbtn, hdir⟩ := flags_after_boot h1 hu
  have hinit := cycle_inited h1 hu
  refine ⟨_, u, ?_, ?_, rfl, (controller_mem_opsOf_iff rfl _ h1).2 hctl, hlowA, hlowB, hinit, hrun, hthr, hchan, hlast,
    hnext, pwm_cnt_after_boot h1 hu, (ctlOp_eq_svcIdle_iff u).2 ⟨hinit, hdir, hbtn⟩⟩
  · rw [runWords_cons _ ht, runWords]
  · rw [runWords_cons _ ht, runWords_cons _ hu, runWords]

theorem no_falls_after_boot {w : InWord} {b a : Bit} {s u : State} (hw : inRst w = false)
    (e : cycle w (loadReset b a s) = .next u) : fallA u = false ∧ fallB u = false := by
  obtain ⟨⟨_, has, hap⟩, _, hbs, hbp⟩ := cycle_synchronizers hw e
  exact ⟨fallA_of_level (hap.trans has.symm), fallB_of_level (hbp.trans hbs.symm)⟩

/-- A line that is low throughout its chain. -/
def LowA (s : State) : Prop := s.a_m = false ∧ s.a_s = false ∧ s.a_p = false

def LowB (s : State) : Prop := s.b_m = false ∧ s.b_s = false ∧ s.b_p = false

theorem cycle_keeps_lowA {w : InWord} {s t : State} (hlow : inBtnA w = false) (e : cycle w s = .next t)
    (h : LowA s) : LowA t := by
  cases hw : inRst w with
  | true => rw [cycle_of_reset hw e]; exact ⟨hlow, hlow, hlow⟩
  | false =>
    obtain ⟨hm, hs, _⟩ := h
    obtain ⟨⟨ham, has, hap⟩, _⟩ := cycle_synchronizers hw e
    exact ⟨ham.trans hlow, has.trans hm, hap.trans hs⟩

theorem cycle_keeps_lowB {w : InWord} {s t : State} (hlow : inBtnB w = false) (e : cycle w s = .next t)
    (h : LowB s) : LowB t := by
  cases hw : inRst w with
  | true => rw [cycle_of_reset hw e]; exact ⟨hlow, hlow, hlow⟩
  | false =>
    obtain ⟨hm, hs, _⟩ := h
    obtain ⟨_, hbm, hbs, hbp⟩ := cycle_synchronizers hw e
    exact ⟨hbm.trans hlow, hbs.trans hm, hbp.trans hs⟩

theorem fallA_of_lowA {s : State} (h : LowA s) : fallA s = false := by
  obtain ⟨_, hs, hp⟩ := h
  exact fallA_of_level (hp.trans hs.symm)

theorem fallB_of_lowB {s : State} (h : LowB s) : fallB s = false := by
  obtain ⟨_, hs, hp⟩ := h
  exact fallB_of_level (hp.trans hs.symm)

/-- Settles O52: a reset fills a chain with one level, and a low chain stays low under low samples, resets among them. -/
theorem heldThroughResetIsNoPress : Obligations.HeldThroughResetIsNoPress := by
  unfold Obligations.HeldThroughResetIsNoPress
  refine ⟨fun s w0 w1 h0 h1 => ?_, fun w0 ws s r u h0 e hu => ?_⟩
  · obtain ⟨t, ht⟩ := cycle_answers w0 s
    obtain rfl := cycle_of_reset h0 ht
    obtain ⟨u, hu⟩ := cycle_answers w1 (loadReset (inBtnB w0) (inBtnA w0) s)
    obtain ⟨hta, htb⟩ := falls_loadReset (inBtnB w0) (inBtnA w0) s
    obtain ⟨hua, hub⟩ := no_falls_after_boot h1 hu
    refine ⟨_, u, ?_, ?_, hta, htb, hua, hub⟩
    · rw [runWords_cons _ ht, runWords]
    · rw [runWords_cons _ ht, runWords_cons _ hu, runWords]
  · obtain rfl := cycle_of_reset h0 e
    refine ⟨fun hlow hws => fallA_of_lowA ?_, fun hlow hws => fallB_of_lowB ?_⟩
    · exact statesOf_keeps (fun w hw _ _ _ => cycle_keeps_lowA (hws w hw)) ⟨hlow, hlow, hlow⟩ u hu
    · exact statesOf_keeps (fun w hw _ _ _ => cycle_keeps_lowB (hws w hw)) ⟨hlow, hlow, hlow⟩ u hu

/-! ### The latency of a press (R182) -/

/-- Line B: the flag of a fall is served in the next cycle. -/
theorem press_b_served {w3 w4 : InWord} {s2 s3 s4 : State} (h3 : inRst w3 = false) (h4 : inRst w4 = false)
    (e3 : cycle w3 s2 = .next s3) (e4 : cycle w4 s3 = .next s4) (hi : s2.inited = true) (hfall : fallB s2 = true) :
    s3.dir_flag = true ∧ .svcDir ∈ opsOf w4 s3 ∧
      s4.pwm_thr = memRead s3.mem s3.last_index ∧ s4.pwm_chan = !s3.dir ∧ s4.pwm_run = true := by
  have hflag : s3.dir_flag = true := by rw [cycle_dir_flag h3 e3, hi, hfall]; rfl
  have hctl : ctlOp s3 = .svcDir := (ctlOp_eq_svcDir_iff s3).2 ⟨cycle_inited h3 e3, hflag⟩
  obtain ⟨_, _, _, hthr, hchan, hrun⟩ := cycle_of_svcDir h4 hctl e4
  exact ⟨hflag, (controller_mem_opsOf_iff rfl s3 h4).2 hctl, hthr, hchan, hrun⟩

/-- Line A, no toggle pending: the duty step is the next cycle's. -/
theorem press_a_served_at_once {w3 w4 : InWord} {s2 s3 s4 : State} (h3 : inRst w3 = false) (h4 : inRst w4 = false)
    (e3 : cycle w3 s2 = .next s3) (e4 : cycle w4 s3 = .next s4) (hb : s3.btn_flag = true) (hd : s3.dir_flag = false) :
    .svcDuty ∈ opsOf w4 s3 ∧
      s4.pwm_thr = memRead s3.mem s3.next_index ∧ s4.pwm_chan = s3.dir ∧ s4.pwm_run = true := by
  have hctl : ctlOp s3 = .svcDuty := (ctlOp_eq_svcDuty_iff s3).2 ⟨cycle_inited h3 e3, hd, hb⟩
  obtain ⟨_, _, _, hthr, hchan, hrun⟩ := cycle_of_svcDuty h4 hctl e4
  exact ⟨(controller_mem_opsOf_iff rfl s3 h4).2 hctl, hthr, hchan, hrun⟩

/-- Line A behind a toggle, which is the cycle's own and so leaves line B's older level low: one cycle later. -/
theorem press_a_served_behind_toggle {w3 w4 w5 : InWord} {s2 s3 s4 s5 : State} (h3 : inRst w3 = false)
    (h4 : inRst w4 = false) (h5 : inRst w5 = false) (e3 : cycle w3 s2 = .next s3) (e4 : cycle w4 s3 = .next s4)
    (e5 : cycle w5 s4 = .next s5) (hb : s3.btn_flag = true) (hd : s3.dir_flag = true) :
    .svcDuty ∈ opsOf w5 s4 ∧
      s5.pwm_thr = memRead s3.mem s3.next_index ∧ s5.pwm_chan = !s3.dir ∧ s5.pwm_run = true := by
  have hctl : ctlOp s3 = .svcDir := (ctlOp_eq_svcDir_iff s3).2 ⟨cycle_inited h3 e3, hd⟩
  have hctl' : ctlOp s4 = .svcDuty := ctlOp_after_toggle (cycle_dir_flag_b_p e3 hd) hb h4 hctl e4
  exact ⟨(controller_mem_opsOf_iff rfl s4 h5).2 hctl', config_of_duty_after_toggle h4 h5 hctl e4 hctl' e5⟩

/-- Settles O51: the chains delay each line's samples by two cycles, and the three lemmas above serve what they give. -/
theorem pressToServiceLatency : Obligations.PressToServiceLatency := by
  unfold Obligations.PressToServiceLatency
  intro s w0 w1 w2 w3 w4 w5 hws
  simp only [NoReset, List.forall_mem_cons] at hws
  obtain ⟨h1, h2, h3, h4, h5, _⟩ := hws
  obtain ⟨s0, e0⟩ := cycle_answers w0 s
  obtain ⟨s1, e1⟩ := cycle_answers w1 s0
  obtain ⟨s2, e2⟩ := cycle_answers w2 s1
  obtain ⟨s3, e3⟩ := cycle_answers w3 s2
  obtain ⟨s4, e4⟩ := cycle_answers w4 s3
  obtain ⟨s5, e5⟩ := cycle_answers w5 s4
  obtain ⟨hfallA, hfallB⟩ := falls_iff_samples h1 h2 e0 e1 e2
  have hi : s2.inited = true := cycle_inited h2 e2
  have hmem : s3.mem = s.mem := by
    rw [cycle_keeps_mem e3, cycle_keeps_mem e2, cycle_keeps_mem e1, cycle_keeps_mem e0]
  rw [← hmem]
  refine ⟨s2, s3, s4, s5, ?_, ?_, ?_, ?_, fun hhigh hlow => ?_, fun hhigh hlow => ?_⟩
  · simp only [runWords, e0, e1, e2]
  · simp only [runWords, e0, e1, e2, e3]
  · simp only [runWords, e0, e1, e2, e3, e4]
  · simp only [runWords, e0, e1, e2, e3, e4, e5]
  · have hfall := hfallB.2 ⟨hhigh, hlow⟩
    exact ⟨hfall, press_b_served h3 h4 e3 e4 hi hfall⟩
  · have hfall := hfallA.2 ⟨hhigh, hlow⟩
    have hb : s3.btn_flag = true := (cycle_btn_flag_of_fallA h3 e3 hfall).trans hi
    exact ⟨hfall, hb, press_a_served_at_once h3 h4 e3 e4 hb, press_a_served_behind_toggle h3 h4 h5 e3 e4 e5 hb⟩

/-! ### The transaction level (R172) -/

/-- A service clears the flags that its controller operation clears (R69), without regard to edges. -/
theorem txService_flags (s : State) :
    (txService (txOf s)).btn_flag = (s.btn_flag && !clrBtn (ctlOp s)) ∧
    (txService (txOf s)).dir_flag = (s.dir_flag && !clrDir (ctlOp s)) := by
  cases hi : s.inited with
  | false =>
    rw [txService_of_not_inited (x := txOf s) hi, (ctlOp_eq_initApply_iff s).2 hi]
    simp [clrBtn, clrDir, txApplyNext]
  | true =>
    obtain ⟨hd, e⟩ | ⟨hd, hb, e⟩ | ⟨hd, hb, e⟩ := txService_running_cases (x := txOf s) hi
    · rw [e, (ctlOp_eq_svcDir_iff s).2 ⟨hi, hd⟩]; simp [clrBtn, clrDir, txOf]
    · rw [e, (ctlOp_eq_svcDuty_iff s).2 ⟨hi, hd, hb⟩]; simp [clrBtn, clrDir, txApplyNext, txOf]
    · rw [e, (ctlOp_eq_svcIdle_iff s).2 ⟨hi, hd, hb⟩]; simp [clrBtn, clrDir, txOf]

/-- R95 at the transaction level: the service, and then the cycle's enabled edges over its flags. -/
theorem txOf_cycle_edges {w : InWord} {s t : State} (hw : inRst w = false) (e : cycle w s = .next t) :
    txOf t =
      { txService (txOf s) with
        btn_flag := (s.inited && fallA s) || (txService (txOf s)).btn_flag
        dir_flag := (s.inited && fallB s) || (txService (txOf s)).dir_flag } := by
  obtain ⟨hbtn, hdir⟩ := cycle_flags hw e
  obtain ⟨hbtn', hdir'⟩ := txService_flags s
  rw [hbtn', hdir', ← hbtn, ← hdir]
  exact txOf_cycle hw e

/-- The moves of the edges of a cycle, line A's first. -/
def edgeMoves (fall_a fall_b : Bit) : List Move :=
  (if fall_a then [.edgeA] else []) ++ (if fall_b then [.edgeB] else [])

theorem txRun_edgeMoves {x : TxState} (hi : x.inited = true) (fall_a fall_b : Bit) :
    txRun (edgeMoves fall_a fall_b) x =
      { x with btn_flag := fall_a || x.btn_flag, dir_flag := fall_b || x.dir_flag } := by
  cases fall_a with
  | false =>
    cases fall_b with
    | false => rfl
    | true => exact txEdgeB_of_inited hi
  | true =>
    have ha : txRun (edgeMoves true fall_b) x = txRun (edgeMoves false fall_b) { x with btn_flag := true } :=
      congrArg (txRun (edgeMoves false fall_b)) (txEdgeA_of_inited hi)
    rw [ha]
    cases fall_b with
    | false => rfl
    | true => exact txEdgeB_of_inited hi

/-- The two edges write different flags. -/
theorem txRun_edges_commute (fall_a fall_b : Bit) (x : TxState) :
    txRun ((if fall_b then [.edgeB] else []) ++ (if fall_a then [.edgeA] else [])) x =
      txRun (edgeMoves fall_a fall_b) x := by
  cases fall_a <;> cases fall_b <;> cases hi : x.inited <;>
    simp [edgeMoves, txRun, txMove, txEdgeA, txEdgeB, hi]

theorem txOf_cycle_running {w : InWord} {s t : State} (hw : inRst w = false) (hi : s.inited = true)
    (e : cycle w s = .next t) : txOf t = txRun (.service :: edgeMoves (fallA s) (fallB s)) (txOf s) := by
  rw [txOf_cycle_edges hw e, hi, Bool.true_and, Bool.true_and]
  exact (txRun_edgeMoves (txService_inited (txOf s)) (fallA s) (fallB s)).symm

theorem txOf_cycle_booting {w : InWord} {s t : State} (hw : inRst w = false) (hi : s.inited = false)
    (e : cycle w s = .next t) : txOf t = txRun [.service] (txOf s) := by
  rw [txOf_cycle_edges hw e, hi]
  rfl

theorem count_service_edgeMoves (fall_a fall_b : Bit) : (edgeMoves fall_a fall_b).count .service = 0 := by
  cases fall_a <;> cases fall_b <;> rfl

/-- One cycle is moves with one Service. -/
theorem cycle_is_moves {w : InWord} {s t : State} (hw : inRst w = false) (e : cycle w s = .next t) :
    ∃ ms : List Move, ms.count .service = 1 ∧ txOf t = txRun ms (txOf s) := by
  cases hi : s.inited with
  | false => exact ⟨[.service], rfl, txOf_cycle_booting hw hi e⟩
  | true =>
    refine ⟨.service :: edgeMoves (fallA s) (fallB s), ?_, txOf_cycle_running hw hi e⟩
    rw [List.count_cons_self, count_service_edgeMoves]

theorem runWords_is_moves {ws : List InWord} {s t : State} (hws : NoReset ws) (e : runWords ws s = .next t) :
    ∃ ms : List Move, ms.count .service = ws.length ∧ txOf t = txRun ms (txOf s) := by
  induction ws generalizing s with
  | nil => cases e; exact ⟨[], rfl, rfl⟩
  | cons w ws ih =>
    obtain ⟨hw, hrest⟩ := List.forall_mem_cons.1 hws
    obtain ⟨u, hu⟩ := cycle_answers w s
    rw [runWords_cons ws hu] at e
    obtain ⟨first, hone, hfirst⟩ := cycle_is_moves hw hu
    obtain ⟨rest, hcount, hlater⟩ := ih hrest e
    refine ⟨first ++ rest, ?_, ?_⟩
    · rw [List.count_append, hone, hcount, List.length_cons, Nat.add_comm]
    · rw [txRun_append, ← hfirst, hlater]

/-- Settles O53: a cycle's moves, in either order of the two edges, and a run's by induction over its words. -/
theorem cyclesRefineTransactions : Obligations.CyclesRefineTransactions := by
  unfold Obligations.CyclesRefineTransactions
  refine ⟨fun w s t hw e => ⟨fun hi => txOf_cycle_booting hw hi e, fun hi => ?_⟩, fun _ _ _ => runWords_is_moves⟩
  have hmoves := txOf_cycle_running hw hi e
  refine ⟨hmoves, hmoves.trans ?_⟩
  exact (txRun_edges_commute (fallA s) (fallB s) (txService (txOf s))).symm

end Sys2Proof.Machine
end
